-- ==== Sys2Proof/Word.lean ====
section
/-! DEFINITION. The word types of the block (00_scope.md R8). Times, lengths and indices are natural numbers
(R9: arithmetic is on mathematical integers), so they have no type here. -/

namespace Sys2Proof

/-- A byte: bit 7 is its most significant bit (R8). -/
abbrev Byte := BitVec 8

/-- A host register or an endpoint identifier: 32 bits (R8, R6 `ID_W`). -/
abbrev Word := BitVec 32

end Sys2Proof
end

