-- ==== Sys2Proof/Config.lean ====
section
/-! DEFINITION. What an instance fixes at build time (00_scope.md R6), and the model's free values.
`TICK_PERIOD` and `BASE_ADDR` are left out: no rule depends on them (R6, 20_memory.md R71; log 16). -/

namespace Sys2Proof

/-- The build-time parameters of one instance (R6). `FR_PAYLOAD_MAX`, `BODY_MAX`, `FRAME_MAX_BYTES` and
`FRAME_MAX_BITS` are computed from them in `Machine/Params.lean`; `ID_W` is fixed at 32. -/
structure Build where
  /-- `TS_W`: width in bits of `NOW` and of every stored timestamp. -/
  tsW : Nat
  /-- `MAX_PAYLOAD`: largest application message, in bytes. -/
  maxPayload : Nat
  /-- `RX_WINDOW_BITS` (`W`): capacity, in slots, of one window's bitstream. -/
  rxWindowBits : Nat
  /-- `RX_TS_DEPTH`: capacity, in entries, of `RX_TS`. -/
  rxTsDepth : Nat
  /-- `SELF_ID_VALUE`: the `self_id` strap. -/
  selfId : Word
  deriving DecidableEq, Repr

/-- The defaults of R6. The strap has none ("per instance"): 0 here is a DESIGN CHOICE (log 8), unsafe only for a
claim about this one instance. -/
def Build.default : Build :=
  { tsW := 64, maxPayload := 32, rxWindowBits := 610, rxTsDepth := 610, selfId := 0 }

/-- Free value: `BT.SLOT d 0`, which the spec says cannot occur (40_bit_timing.md R133; log 10). Safe. -/
opaque Config.slotOfZeroDuration : Int → Int

/-- Free value: bit `i` of `TX_FRAME` when `i` is beyond its end, which no reachable state reads
(10_state.md R53 (b); log 11). Safe. -/
opaque Config.bitBeyondFrame : Nat → Bool

end Sys2Proof
end

