-- ==== Sys2Proof/Machine/BitTiming.lean ====
section
/-! DEFINITION. The Bit Timing Codec (40_bit_timing.md). Times are natural numbers, differences and references are
integers (R143). All functions are pure (30_encoding.md R115). -/

namespace Sys2Proof.Machine

/-- `BT.ENCODE(bits, t0, T)` (R131): action `i` is `(t0 + i*T, emit DATA-PULSE?)`. -/
def btEncode : List Bool → Nat → Nat → List (Nat × Bool)
  | [], _, _ => []
  | b :: bs, t0, T => (t0, b) :: btEncode bs (t0 + T) T

/-- `BT.SLOT(d, T)` (R133). With `T = 0`, which cannot occur, a free value (log 10). -/
def btSlot (d : Int) (T : Nat) : Int :=
  if T = 0 then Config.slotOfZeroDuration d else (2 * d + T - 1) / (2 * T)

/-- The residual `d - k*T` of a time difference in its slot (R133). -/
def btResidual (d : Int) (T : Nat) : Int := d - btSlot d T * T

/-- TimingAmbiguity: `T - 2*abs(r) <= 2*M` (R136). -/
def isAmbiguous (T M : Nat) (r : Int) : Bool := decide ((T : Int) - 2 * (r.natAbs : Int) ≤ 2 * (M : Int))

/-- `ASSEMBLE(k_0 .. k_(n-1), W)` (R137): the bitstream and the overflow mark. -/
def assemble (ks : List Nat) (W : Nat) : List Bool × Bool :=
  let kept := ks.filter (fun k => decide (k + 2 ≤ W))
  let ovf := ks.any (fun k => decide (W < k + 2))
  match kept with
  | [] => ([], ovf)
  | k :: rest => ((List.range (rest.foldl max k + 2)).map (fun j => kept.contains j), ovf)

/-- What `BT.DECODE` returns: the bitstream, the number of ambiguous pulses, the overflow mark (R134). -/
structure Recovered where
  bits : List Bool
  namb : Nat
  ovf : Bool
  deriving DecidableEq, Repr

/-- Slot and residual of each pulse on the fixed grid; a pulse before the grid goes to slot 0 (R134). -/
def placeFixed (ts : List Nat) (tref : Int) (T : Nat) : List (Nat × Int) :=
  ts.map (fun (t : Nat) => ((btSlot ((t : Int) - tref) T).toNat, btResidual ((t : Int) - tref) T))

/-- Slot and residual of each pulse after one stamped `prev` in slot `k`, each measured from the pulse before it
(R135). The number of slots advanced is not negative for a later pulse (log 18). -/
def placeFrom (T : Nat) : Nat → Nat → List Nat → List (Nat × Int)
  | _, _, [] => []
  | prev, k, t :: ts =>
    let d := (t : Int) - (prev : Int)
    let k' := k + (btSlot d T).toNat
    (k', btResidual d T) :: placeFrom T t k' ts

/-- Slot and residual of each pulse with re-anchoring; the first is placed by the grid (R135). -/
def placeReanchor (ts : List Nat) (tref : Int) (T : Nat) : List (Nat × Int) :=
  match ts with
  | [] => []
  | t :: rest =>
    let d := (t : Int) - tref
    let k := (btSlot d T).toNat
    (k, btResidual d T) :: placeFrom T t k rest

/-- The common end of R134 and R135: assemble the bits, count the ambiguous pulses. -/
def recover (placed : List (Nat × Int)) (T W M : Nat) : Recovered :=
  let a := assemble (placed.map Prod.fst) W
  { bits := a.1, namb := placed.countP (fun p => isAmbiguous T M p.2), ovf := a.2 }

/-- `BT.DECODE` with the fixed grid (R134). -/
def btDecodeFixed (ts : List Nat) (tref : Int) (T W M : Nat) : Recovered :=
  recover (placeFixed ts tref T) T W M

/-- `BT.DECODE` with re-anchoring (R135). -/
def btDecodeReanchor (ts : List Nat) (tref : Int) (T W M : Nat) : Recovered :=
  recover (placeReanchor ts tref T) T W M

/-- `BT.DECODE` in the mode that `CFG_MODE.REANCHOR` selects (10_state.md R30). -/
def btDecode (reanchor : Bool) (ts : List Nat) (tref : Int) (T W M : Nat) : Recovered :=
  if reanchor then btDecodeReanchor ts tref T W M else btDecodeFixed ts tref T W M

end Sys2Proof.Machine
end

