-- ==== Sys2Proof/Syntax.lean ====
section
/-! DEFINITION. The operations of the block, one constructor per row of spec/opcode_table.json, and the small types
their operands and results need. -/

namespace Sys2Proof

/-- The three kinds of `FrameError` (60_exceptions.md R260). -/
inductive FrameError where
  | crcMismatch
  | truncated
  | escapeError
  deriving DecidableEq, Repr

/-- What `FR.DECODE` and `FR.UNESCAPE` return: `Ok(bytes)` or `Err(e)` (41_frame_codec.md R155, R156). -/
inductive Verdict where
  | ok (bytes : List Byte)
  | err (e : FrameError)
  deriving DecidableEq, Repr

/-- The host-addressable spaces (20_memory.md R70). -/
inductive Space where
  | reg
  | txbuf
  | rxbuf
  deriving DecidableEq, Repr

/-- The two byte buffers, the spaces `BUF.RD` may name (44_host_interface.md R233). -/
inductive BufSpace where
  | txbuf
  | rxbuf
  deriving DecidableEq, Repr

/-- Read, or write of a value (30_encoding.md R111: the value is present for `WR`), of at most 32 bits at every width
(44_host_interface.md R232, R234). -/
inductive BusOp where
  | rd
  | wr (value : Word)
  deriving DecidableEq, Repr

/-- A host bus access as a tuple, width in bytes (30_encoding.md R111). -/
structure Access where
  op : BusOp
  space : Space
  addr : Nat
  width : Nat
  deriving DecidableEq, Repr

/-- The operations. A comment names the row's mnemonic where the constructor's name does not spell it. -/
inductive Instr where
  -- format CMD (30_encoding.md R107 to R109)
  | nop
  | send
  | rxEnable
  | rxDisable
  | softReset
  | cmdReserved (v : Word)
  -- formats WIRE, HDR, FRAME (R101, R102, R103, R105)
  | wireFlag
  | wireEsc (x : Byte)
  | wireLit (b : Byte)
  | hdr (s : Bool)
  | frame (payload : List Byte)
  -- format EVT (R110)
  | ackCapture
  | tick (d a : Bool)
  | reset
  -- format BUS (R111)
  | regRd (off : Nat)
  | regWr (off : Nat) (v : Word)
  | bufRd (space : BufSpace) (a : Nat)
  | bufWr (a : Nat) (b : Byte)
  | regWrFlags (v : Word)
  | regWrIrqEn (v : Word)
  | regWrTxLen (v : Word)
  | regWrPeerId (v : Word)
  | regWrCfgMode (v : Word)
  | regWrCfgTslot (v : Word)
  | regWrCfgTidle (v : Word)
  | regWrCfgTack (v : Word)
  | regWrCfgMaxRetry (v : Word)
  | regWrCfgAmbig (v : Word)
  | busError (acc : Access)
  -- format TXV (R112): TX.HOLD has the two rows 000----- and 011-----
  | txHoldIdle
  | txHoldFailed
  | txWaitSlot
  | txEmit
  | txEmitLast
  | txAcked
  | txWait
  | txRetx
  | txFail
  -- format RXV (R113): RX.WAIT has the three rows 011-, 1-1- and 1-00
  | rxIgnore
  | rxStart
  | rxCapture
  | rxWaitStart
  | rxWaitCapture
  | rxWaitQuiet
  | rxClose
  -- format RXO (R114)
  | rxDropErr (e : FrameError)
  | rxDropHdr
  | rxDup (s : Bool)
  | rxBusy (s : Bool)
  | rxDeliver (s : Bool) (m : List Byte)
  -- format FUNC (R115): BT.DECODE has one row for each mode
  | btEncode (bits : List Bool) (t0 T : Nat)
  | btSlot (d : Int) (T : Nat)
  | btDecodeFixed (ts : List Nat) (tref : Int) (T W M : Nat)
  | btDecodeReanchor (ts : List Nat) (tref : Int) (T W M : Nat)
  | assemble (ks : List Nat) (W : Nat)
  | crc32 (p : List Byte)
  | crc32le (p : List Byte)
  | frEscape (body : List Byte)
  | frEncode (p : List Byte)
  | frUnescape (raw : List Byte)
  | frDecode (bits : List Bool) (bodyMax : Nat)
  deriving DecidableEq, Repr

end Sys2Proof
end

