-- ==== Sys2Proof/Machine/FrameCodec.lean ====
section
/-! DEFINITION. The Frame Codec (41_frame_codec.md): CRC-32, byte stuffing, framing and the decode of a bitstream.
All functions are pure (30_encoding.md R115). -/

namespace Sys2Proof.Machine

/-- FLAG (R101). -/
def flagByte : Byte := 0x7E

/-- ESCAPE (R101). -/
def escByte : Byte := 0x7D

/-- The XOR mask (R101). -/
def maskByte : Byte := 0x20

/-- One bit of R150's inner loop. -/
def crcBit (c : Word) : Word :=
  if c.getLsbD 0 then (c >>> 1) ^^^ 0xEDB88320#32 else c >>> 1

/-- One byte of R150's outer loop: eight bits after the XOR of the byte. -/
def crcByte (c : Word) (b : Byte) : Word :=
  crcBit (crcBit (crcBit (crcBit (crcBit (crcBit (crcBit (crcBit (c ^^^ b.zeroExtend 32))))))))

/-- `CRC32(p)` (R150). The algorithm is the spec's, from general knowledge (G1; log 13). -/
def crc32 (p : List Byte) : Word := p.foldl crcByte 0xFFFFFFFF#32 ^^^ 0xFFFFFFFF#32

/-- The four bytes of a word, least significant first (20_memory.md R72). -/
def bytesLE (c : Word) : List Byte :=
  [c.extractLsb' 0 8, c.extractLsb' 8 8, c.extractLsb' 16 8, c.extractLsb' 24 8]

/-- `CRC32LE(p)` (R151). -/
def crc32le (p : List Byte) : List Byte := bytesLE (crc32 p)

/-- `FR.ESCAPE(B)` (R152). -/
def frEscape : List Byte → List Byte
  | [] => []
  | b :: bs =>
    if b = flagByte ∨ b = escByte then escByte :: (b ^^^ maskByte) :: frEscape bs
    else b :: frEscape bs

/-- `FR.ENCODE(p)` (R153). -/
def frEncode (p : List Byte) : List Byte := [flagByte] ++ frEscape (p ++ crc32le p) ++ [flagByte]

/-- Put a byte in front of a successful result. -/
def pushByte (b : Byte) : Verdict → Verdict
  | .ok bs => .ok (b :: bs)
  | .err e => .err e

/-- `FR.UNESCAPE(R)` (R155, R159): any byte may follow `7D`; a last lone `7D` is the only error. -/
def frUnescape : List Byte → Verdict
  | [] => .ok []
  | [b] => if b = escByte then .err .escapeError else .ok [b]
  | b :: c :: rest =>
    if b = escByte then pushByte (c ^^^ maskByte) (frUnescape rest)
    else pushByte b (frUnescape (c :: rest))

/-- The sequence header byte `zext_8(s)` (30_encoding.md R105). -/
def headerByte (s : Bool) : Byte := (BitVec.ofBool s).zeroExtend 8

/-- The eight bits of a byte in wire order, bit 7 first (30_encoding.md R104). -/
def byteBits (b : Byte) : List Bool :=
  [b.getLsbD 7, b.getLsbD 6, b.getLsbD 5, b.getLsbD 4, b.getLsbD 3, b.getLsbD 2, b.getLsbD 1, b.getLsbD 0]

/-- `bits(frame)` (30_encoding.md R104). -/
def bitsOf (bytes : List Byte) : List Bool := bytes.flatMap byteBits

/-- The byte whose bits in wire order are the eight given (30_encoding.md R104). -/
def byteOfBits (b7 b6 b5 b4 b3 b2 b1 b0 : Bool) : Byte :=
  BitVec.ofNat 8 (128 * b7.toNat + 64 * b6.toNat + 32 * b5.toNat + 16 * b4.toNat + 8 * b3.toNat + 4 * b2.toNat
    + 2 * b1.toNat + b0.toNat)

/-- The whole bytes of a bitstream; a last group of fewer than eight bits is no byte (R158). -/
def bytesOf : List Bool → List Byte
  | b7 :: b6 :: b5 :: b4 :: b3 :: b2 :: b1 :: b0 :: rest => byteOfBits b7 b6 b5 b4 b3 b2 b1 b0 :: bytesOf rest
  | _ => []

/-- The bits of FLAG, `01111110` (R157). -/
def flagBits : List Bool := [false, true, true, true, true, true, true, false]

/-- What follows the first occurrence of the bits of FLAG, sought at every bit offset from 0 (R157). -/
def afterFlag : List Bool → Option (List Bool)
  | [] => none
  | b :: bs => if flagBits.isPrefixOf (b :: bs) then some ((b :: bs).drop 8) else afterFlag bs

/-- The raw bytes before the first FLAG byte (R158). -/
def untilFlag : List Byte → Option (List Byte)
  | [] => none
  | b :: bs => if b = flagByte then some [] else (untilFlag bs).map (b :: ·)

/-- Steps 4 and 5 of `FR.DECODE` on an unescaped body (R160, R161). -/
def frCheck (bodyMax : Nat) (body : List Byte) : Verdict :=
  if body.length > bodyMax then .err .truncated
  else if body.length < 4 then .err .truncated
  else if body.drop (body.length - 4) ≠ crc32le (body.take (body.length - 4)) then .err .crcMismatch
  else .ok (body.take (body.length - 4))

/-- Steps 2 to 5 of `FR.DECODE` on the aligned bytes after the opening FLAG (R158 to R162). -/
def frDecodeRaw (bodyMax : Nat) (bytes : List Byte) : Verdict :=
  match untilFlag bytes with
  | none => .err .truncated
  | some raw =>
    match frUnescape raw with
    | .err e => .err e
    | .ok body => frCheck bodyMax body

/-- `FR.DECODE(bits, BODY_MAX)` (R156). -/
def frDecode (bits : List Bool) (bodyMax : Nat) : Verdict :=
  match afterFlag bits with
  | none => .err .truncated
  | some rest => frDecodeRaw bodyMax (bytesOf rest)

end Sys2Proof.Machine
end

