-- ==== Sys2Proof/Machine/Params.lean ====
section
/-! DEFINITION. The sizes derived from the build-time parameters, and the constraints on these (00_scope.md R6). -/

namespace Sys2Proof

/-- `FR_PAYLOAD_MAX`: sequence header byte and message. -/
def Build.frPayloadMax (b : Build) : Nat := b.maxPayload + 1

/-- `BODY_MAX`: frame-codec payload and four CRC bytes. -/
def Build.bodyMax (b : Build) : Nat := b.maxPayload + 5

/-- `FRAME_MAX_BYTES`: every body byte escaped, two flags. -/
def Build.frameMaxBytes (b : Build) : Nat := 2 + 2 * b.bodyMax

/-- `FRAME_MAX_BITS`. -/
def Build.frameMaxBits (b : Build) : Nat := 8 * b.frameMaxBytes

/-- The "constraint" column of R6. -/
abbrev Build.wf (b : Build) : Prop :=
  32 ≤ b.tsW ∧ b.maxPayload ≤ 1024 ∧ b.frameMaxBits + 2 ≤ b.rxWindowBits ∧ 1 ≤ b.rxTsDepth

/-- The largest `MAX_PAYLOAD` that R6 admits in any instance. -/
def payloadLimit : Nat := 1024

/-- Reset default of `CFG_TSLOT` (10_state.md R31). -/
def resetTslot : Nat := 10

/-- Reset default of `CFG_TIDLE`: `(8*BODY_MAX + 4) * 10` (10_state.md R32). -/
def Build.resetTidle (b : Build) : Nat := (8 * b.bodyMax + 4) * 10

/-- Reset default of `CFG_TACK`: four times that of `CFG_TIDLE` (10_state.md R33). -/
def Build.resetTack (b : Build) : Nat := 4 * (8 * b.bodyMax + 4) * 10

/-- Reset default of `CFG_MAXRETRY` (10_state.md R34). -/
def resetMaxRetry : Nat := 3

/-- Reset default of `CFG_AMBIG` (10_state.md R35). -/
def resetAmbig : Nat := 1

end Sys2Proof
end

