-- ==== Sys2Proof/Machine/RegMap.lean ====
section
/-! DEFINITION. The register map of the space `REG` (10_state.md R26) and the flat addresses of the two buffers
(20_memory.md R71). -/

namespace Sys2Proof.Machine

/-- The 19 registers of R26. -/
inductive Reg where
  | cmd | flags | irqEn | errCode | cfgMode | cfgTslot | cfgTidle | cfgTack | cfgMaxRetry | cfgAmbig
  | selfId | peerId | txLen | txStatus | rxStatus | rxLen | rxAmbig | nowLo | nowHi
  deriving DecidableEq, Repr

/-- The byte offset of each register (R26). -/
def Reg.offset : Reg → Nat
  | .cmd => 0x00
  | .flags => 0x04
  | .irqEn => 0x08
  | .errCode => 0x0C
  | .cfgMode => 0x10
  | .cfgTslot => 0x14
  | .cfgTidle => 0x18
  | .cfgTack => 0x1C
  | .cfgMaxRetry => 0x20
  | .cfgAmbig => 0x24
  | .selfId => 0x28
  | .peerId => 0x2C
  | .txLen => 0x30
  | .txStatus => 0x34
  | .rxStatus => 0x38
  | .rxLen => 0x3C
  | .rxAmbig => 0x40
  | .nowLo => 0x44
  | .nowHi => 0x48

/-- All registers, by rising offset. -/
def Reg.all : List Reg :=
  [.cmd, .flags, .irqEn, .errCode, .cfgMode, .cfgTslot, .cfgTidle, .cfgTack, .cfgMaxRetry, .cfgAmbig,
   .selfId, .peerId, .txLen, .txStatus, .rxStatus, .rxLen, .rxAmbig, .nowLo, .nowHi]

/-- The register at a byte offset; `none` is an unmapped or misaligned offset (R26, 20_memory.md R74). -/
def Reg.at? (off : Nat) : Option Reg := Reg.all.find? (fun r => r.offset == off)

/-- The registers whose every write is a bus error (R26 `RO`, 44_host_interface.md R232). -/
def Reg.readOnly : Reg → Bool
  | .errCode | .selfId | .txStatus | .rxStatus | .rxLen | .rxAmbig | .nowLo | .nowHi => true
  | _ => false

/-- The registers whose write has a row of its own in the operation table (`REG.WR_FLAGS` and the nine others). -/
def Reg.hasOwnRow : Reg → Bool
  | .flags | .irqEn | .txLen | .peerId | .cfgMode | .cfgTslot | .cfgTidle | .cfgTack | .cfgMaxRetry | .cfgAmbig => true
  | _ => false

/-- Flat address of byte `i` of `TXBUF` (20_memory.md R71). -/
def txbufAddr (i : Nat) : Nat := 0x400 + i

/-- Flat address of byte `i` of `RXBUF` (20_memory.md R71). -/
def rxbufAddr (i : Nat) : Nat := 0x800 + i

end Sys2Proof.Machine
end

