-- ==== Sys2Proof/WellFormed.lean ====
section
/-! DEFINITION. Which operations are well formed: the constraints that the spec puts on an operand. What an operation
does on an operand outside a SIZE of the instance (a buffer address, `TX_LEN`) is its own rule, not a matter of form. -/

namespace Sys2Proof

/-- Timestamps strictly increasing (40_bit_timing.md R134). -/
def strictlyRising : List Nat → Bool
  | [] => true
  | [_] => true
  | t :: u :: rest => decide (t < u) && strictlyRising (u :: rest)

/-- The accesses that the rows other than `BUS.ERROR` stand for: a listed register, 4 bytes wide, or a buffer, 1 byte
wide, but no write to `RXBUF` (20_memory.md R74, R79). A buffer address is judged when the access is performed. -/
def Access.legal (a : Access) : Bool :=
  match a.space, a.op with
  | .reg, _ => a.width == 4 && (Machine.Reg.at? a.addr).isSome
  | .txbuf, _ => a.width == 1
  | .rxbuf, .rd => a.width == 1
  | .rxbuf, .wr _ => false

/-- Well-formedness of an operation. -/
def Instr.wf : Instr → Bool
  | .nop => true
  | .send => true
  | .rxEnable => true
  | .rxDisable => true
  | .softReset => true
  | .cmdReserved v => decide (4 < v.toNat)                                                        -- R109
  | .wireFlag => true
  | .wireEsc x => x != Machine.flagByte                                                           -- R102
  | .wireLit b => b != Machine.flagByte && b != Machine.escByte                                   -- R102
  | .hdr _ => true
  | .frame p => decide (p.length ≤ payloadLimit + 1)                                              -- R6, R153
  | .ackCapture => true
  | .tick _ _ => true
  | .reset => true
  | .regRd off => (Machine.Reg.at? off).isSome                                                    -- R74
  | .regWr off _ => match Machine.Reg.at? off with | some r => !r.hasOwnRow | none => false       -- R74
  | .bufRd _ _ => true
  | .bufWr _ _ => true
  | .regWrFlags _ => true
  | .regWrIrqEn _ => true
  | .regWrTxLen _ => true
  | .regWrPeerId _ => true
  | .regWrCfgMode _ => true
  | .regWrCfgTslot _ => true
  | .regWrCfgTidle _ => true
  | .regWrCfgTack _ => true
  | .regWrCfgMaxRetry _ => true
  | .regWrCfgAmbig _ => true
  | .busError a => !a.legal                                                                       -- R79
  | .txHoldIdle => true
  | .txHoldFailed => true
  | .txWaitSlot => true
  | .txEmit => true
  | .txEmitLast => true
  | .txAcked => true
  | .txWait => true
  | .txRetx => true
  | .txFail => true
  | .rxIgnore => true
  | .rxStart => true
  | .rxCapture => true
  | .rxWaitStart => true
  | .rxWaitCapture => true
  | .rxWaitQuiet => true
  | .rxClose => true
  | .rxDropErr _ => true
  | .rxDropHdr => true
  | .rxDup _ => true
  | .rxBusy _ => true
  | .rxDeliver _ m => decide (m.length ≤ payloadLimit)                                            -- R211, R6
  | .btEncode _ _ T => decide (1 ≤ T)                                                             -- R131
  | .btSlot _ T => decide (1 ≤ T)                                                                 -- R133
  | .btDecodeFixed ts _ T _ _ => decide (1 ≤ T) && strictlyRising ts                              -- R134
  | .btDecodeReanchor ts _ T _ _ => decide (1 ≤ T) && strictlyRising ts                           -- R135
  | .assemble _ _ => true
  | .crc32 _ => true
  | .crc32le _ => true
  | .frEscape _ => true
  | .frEncode p => decide (p.length ≤ payloadLimit + 1)                                           -- R153
  | .frUnescape raw => !raw.contains Machine.flagByte                                             -- R155
  | .frDecode _ _ => true

end Sys2Proof
end

