-- ==== Sys2Proof/Decode.lean ====
section
/-! DEFINITION. The decoder and the encoder.

The hardware decodes five things (30_encoding.md, opening): bits on the wire, the header byte, the value written to
`CMD`, the two strobes of a tick, and its own state. A `Record` is one of these as it stands in a script (R121: one
operation per line), of one of the formats of R100 (log 2). Every encoding has a treatment (R116), so every record
decodes to an operation; the codes that R112 calls unreachable are excluded by the types, as
93_implementation_defined.md U13 lets a model do. -/

namespace Sys2Proof

/-- The formats of 30_encoding.md R100. -/
inductive Format where
  | frame | wire | hdr | cmd | evt | bus | txv | rxv | rxo | func
  deriving DecidableEq, Repr

/-- The dispatch vector `redi` of a tick in which a window is open after phase P1, which is where phase P3 has an
operation (R113). -/
inductive OpenVector where
  /-- `011i`: this tick opened it. -/
  | opened (i : Bool)
  /-- `1edi`: it was open on entry. -/
  | wasOpen (e d i : Bool)
  deriving DecidableEq, Repr

/-- A codec function and its arguments; these have no encoding of their own (R115). -/
inductive CodecCall where
  | btEncode (bits : List Bool) (t0 T : Nat)
  | btSlot (d : Int) (T : Nat)
  | btDecodeFixed (ts : List Nat) (tref : Int) (T W M : Nat)
  | btDecodeReanchor (ts : List Nat) (tref : Int) (T W M : Nat)
  | assemble (ks : List Nat) (W : Nat)
  | crc32 (p : List Byte)
  | crc32le (p : List Byte)
  | frEscape (body : List Byte)
  | frEncode (p : List Byte)
  | frUnescape (raw : List Byte)
  | frDecode (bits : List Bool) (bodyMax : Nat)
  deriving DecidableEq, Repr

/-- One operation as it stands in a script, before it is decoded. -/
inductive Record where
  /-- Format `FRAME`: the raw bytes on the wire (R101). -/
  | frame (bytes : List Byte)
  /-- Format `WIRE`: an aligned raw byte, and the one after it where the frame has one (R102, R103). -/
  | wire (b : Byte) (after : Option Byte)
  /-- Format `HDR`: the header byte (R105). -/
  | hdr (b : Byte)
  /-- Format `CMD`: the value written (R107). -/
  | cmd (v : Word)
  /-- Format `EVT`: the strobes of a tick (R110). -/
  | tick (d a : Bool)
  /-- Format `EVT`: `rst = 1` (20_memory.md R81). -/
  | reset
  /-- Format `EVT`: phase P2 alone, of a tick with `a = 1` (log 4). -/
  | ackStrobe
  /-- Format `BUS`: the tuple of an access (R111). -/
  | bus (a : Access)
  /-- Format `TXV`: the vector `sssdlktx` below its leading 0; the vectors `1-------` are unreachable (R112). -/
  | txv (v : BitVec 7)
  /-- Format `RXV`, phase P1, which has an operation where `d = 1`: the other bits `r`, `e`, `i` (R113). -/
  | rxvP1 (r e i : Bool)
  /-- Format `RXV`, phase P3 (R113). -/
  | rxvP3 (v : OpenVector)
  /-- Format `RXO`: the verdict, which gives `f`, `h` and the error class, and the bits `q` and `b` (R114). -/
  | rxo (v : Verdict) (q b : Bool)
  /-- Format `FUNC` (R115). -/
  | func (c : CodecCall)
  deriving DecidableEq, Repr

/-- The format of a record. -/
def Record.fmt : Record → Format
  | .frame _ => .frame
  | .wire _ _ => .wire
  | .hdr _ => .hdr
  | .cmd _ => .cmd
  | .tick _ _ => .evt
  | .reset => .evt
  | .ackStrobe => .evt
  | .bus _ => .bus
  | .txv _ => .txv
  | .rxvP1 _ _ _ => .rxv
  | .rxvP3 _ => .rxv
  | .rxo _ _ _ => .rxo
  | .func _ => .func

/-- The sender operations of phase P4; `TX.HOLD` once for each of its rows (R112). -/
inductive TxOp where
  | holdIdle | holdFailed | waitSlot | emit | emitLast | acked | wait | retx | fail
  deriving DecidableEq, Repr

/-- The table of R112 on a vector `sssdlktx` whose leading bit is 0. -/
def txvOp (v : BitVec 7) : TxOp :=
  match v.getLsbD 6, v.getLsbD 5 with
  | false, false => .holdIdle
  | true, true => .holdFailed
  | false, true =>
    match v.getLsbD 4, v.getLsbD 3 with
    | false, _ => .waitSlot
    | true, false => .emit
    | true, true => .emitLast
  | true, false =>
    match v.getLsbD 2, v.getLsbD 1, v.getLsbD 0 with
    | true, _, _ => .acked
    | false, false, _ => .wait
    | false, true, false => .retx
    | false, true, true => .fail

/-- The receiver operations of phase P1 (R113). -/
inductive RxOp1 where
  | ignore | start | capture
  deriving DecidableEq, Repr

/-- The receiver operations of phase P3; `RX.WAIT` once for each of its rows (R113). -/
inductive RxOp3 where
  | waitStart | waitCapture | waitQuiet | close
  deriving DecidableEq, Repr

/-- The P1 column of R113 where `d = 1`; `i` does not matter. -/
def rxvOp1 (r e : Bool) : RxOp1 :=
  match r, e with
  | false, false => .ignore
  | false, true => .start
  | true, _ => .capture

/-- The P3 column of R113. -/
def rxvOp3 : OpenVector → RxOp3
  | .opened _ => .waitStart
  | .wasOpen _ true _ => .waitCapture
  | .wasOpen _ false false => .waitQuiet
  | .wasOpen _ false true => .close

/-- Format `CMD`: all 32 bits are compared (R107, R108, R109). -/
def decodeCmd (v : Word) : Instr :=
  if v = 0 then .nop
  else if v = 1 then .send
  else if v = 2 then .rxEnable
  else if v = 3 then .rxDisable
  else if v = 4 then .softReset
  else .cmdReserved v

/-- Format `WIRE`: the class of a raw byte. An ESC takes the next byte with it; where there is none before the closing
FLAG, which is located first, it dangles, and is what `FR.UNESCAPE` reports (R102, R103, R116). -/
def decodeWire (b : Byte) (after : Option Byte) : Instr :=
  if b = Machine.flagByte then .wireFlag
  else if b = Machine.escByte then
    match after with
    | some x => if x = Machine.flagByte then .frUnescape [b] else .wireEsc x
    | none => .frUnescape [b]
  else .wireLit b

/-- The payload of a Raw Frame (R101): the payload that decodes from the bytes, where the bytes are its encoding. A frame
has one spelling, since R101 and R103 escape `7E` and `7D` only and fix the two bytes they become, so bytes that hold
another pair, `7D 7D` say, are no Raw Frame although they decode (log 2). The body bound is that of the largest instance
(00_scope.md R6). -/
def framePayload (bytes : List Byte) : Option (List Byte) :=
  match Machine.frDecodeRaw (payloadLimit + 5) (bytes.drop 1) with
  | .err _ => none
  | .ok p => if Machine.frEncode p = bytes then some p else none

/-- Format `FRAME`. Bytes that are no Raw Frame are bits on the wire, and stand for `FR.DECODE` of them: it reports the
`FrameError` of R116 where there is one, and yields the payload where a pair other than `7D 5E` and `7D 5D` is accepted
(R103, R116). That such bytes are no `FRAME` row is the model's reading (DEDUCED, log 2). -/
def decodeFrame (bytes : List Byte) : Instr :=
  match framePayload bytes with
  | some p => .frame p
  | none => .frDecode (Machine.bitsOf bytes) (payloadLimit + 5)

/-- The row that stands for a bus access (R111): a write to a register that has a row of its own is that row, an access
of no other row is `BUS.ERROR`. A legal write to a buffer is one byte wide and carries the low byte (log 14). -/
def Access.toInstr (a : Access) : Instr :=
  match a.space, a.op with
  | .reg, .rd => if a.legal then .regRd a.addr else .busError a
  | .reg, .wr v =>
    if a.legal then
      match Machine.Reg.at? a.addr with
      | some .flags => .regWrFlags v
      | some .irqEn => .regWrIrqEn v
      | some .txLen => .regWrTxLen v
      | some .peerId => .regWrPeerId v
      | some .cfgMode => .regWrCfgMode v
      | some .cfgTslot => .regWrCfgTslot v
      | some .cfgTidle => .regWrCfgTidle v
      | some .cfgTack => .regWrCfgTack v
      | some .cfgMaxRetry => .regWrCfgMaxRetry v
      | some .cfgAmbig => .regWrCfgAmbig v
      | _ => .regWr a.addr v
    else .busError a
  | .txbuf, .rd => if a.legal then .bufRd .txbuf a.addr else .busError a
  | .rxbuf, .rd => if a.legal then .bufRd .rxbuf a.addr else .busError a
  | .txbuf, .wr v => if a.legal then .bufWr a.addr (v.truncate 8) else .busError a
  | .rxbuf, .wr _ => .busError a

/-- The row of a sender operation. -/
def TxOp.toInstr : TxOp → Instr
  | .holdIdle => .txHoldIdle
  | .holdFailed => .txHoldFailed
  | .waitSlot => .txWaitSlot
  | .emit => .txEmit
  | .emitLast => .txEmitLast
  | .acked => .txAcked
  | .wait => .txWait
  | .retx => .txRetx
  | .fail => .txFail

/-- The row of a receiver operation of phase P1. -/
def RxOp1.toInstr : RxOp1 → Instr
  | .ignore => .rxIgnore
  | .start => .rxStart
  | .capture => .rxCapture

/-- The row of a receiver operation of phase P3. -/
def RxOp3.toInstr : RxOp3 → Instr
  | .waitStart => .rxWaitStart
  | .waitCapture => .rxWaitCapture
  | .waitQuiet => .rxWaitQuiet
  | .close => .rxClose

/-- Format `RXO`, by its priority order: the error, the empty payload, the duplicate, the busy mailbox, the delivery
(R114). -/
def decodeRxo (v : Verdict) (q b : Bool) : Instr :=
  match v with
  | .err e => .rxDropErr e
  | .ok [] => .rxDropHdr
  | .ok (h :: m) =>
    if q then .rxDup (h.getLsbD 0)
    else if b then .rxBusy (h.getLsbD 0)
    else .rxDeliver (h.getLsbD 0) m

/-- The row of a codec function. -/
def CodecCall.toInstr : CodecCall → Instr
  | .btEncode bits t0 T => .btEncode bits t0 T
  | .btSlot d T => .btSlot d T
  | .btDecodeFixed ts tref T W M => .btDecodeFixed ts tref T W M
  | .btDecodeReanchor ts tref T W M => .btDecodeReanchor ts tref T W M
  | .assemble ks W => .assemble ks W
  | .crc32 p => .crc32 p
  | .crc32le p => .crc32le p
  | .frEscape body => .frEscape body
  | .frEncode p => .frEncode p
  | .frUnescape raw => .frUnescape raw
  | .frDecode bits bodyMax => .frDecode bits bodyMax

/-- THE DECODER: the operation a record stands for. -/
def decode : Record → Instr
  | .frame bytes => decodeFrame bytes
  | .wire b after => decodeWire b after
  | .hdr b => .hdr (b.getLsbD 0)                                     -- R105: bits 7:1 are ignored
  | .cmd v => decodeCmd v
  | .tick d a => .tick d a
  | .reset => .reset
  | .ackStrobe => .ackCapture
  | .bus a => a.toInstr
  | .txv v => (txvOp v).toInstr
  | .rxvP1 r e _ => (rxvOp1 r e).toInstr
  | .rxvP3 v => (rxvOp3 v).toInstr
  | .rxo v q b => decodeRxo v q b
  | .func c => c.toInstr

/-! The encoder. -/

/-- A buffer as a space. -/
def BufSpace.toSpace : BufSpace → Space
  | .txbuf => .txbuf
  | .rxbuf => .rxbuf

/-- A write of `v` to a register (R121 `WR <reg>, <value>`). -/
def regWrRecord (off : Nat) (v : Word) : Record := .bus { op := .wr v, space := .reg, addr := off, width := 4 }

/-- THE ENCODER, from the same formats; bits a row leaves open (`-`) are written as 0. -/
def encode : Instr → Record
  | .nop => .cmd 0
  | .send => .cmd 1
  | .rxEnable => .cmd 2
  | .rxDisable => .cmd 3
  | .softReset => .cmd 4
  | .cmdReserved v => .cmd v
  | .wireFlag => .wire 0x7E none
  | .wireEsc x => .wire 0x7D (some x)
  | .wireLit b => .wire b none
  | .hdr s => .hdr (Machine.headerByte s)
  | .frame p => .frame (Machine.frEncode p)
  | .ackCapture => .ackStrobe
  | .tick d a => .tick d a
  | .reset => .reset
  | .regRd off => .bus { op := .rd, space := .reg, addr := off, width := 4 }
  | .regWr off v => regWrRecord off v
  | .bufRd sp a => .bus { op := .rd, space := sp.toSpace, addr := a, width := 1 }
  | .bufWr a b => .bus { op := .wr (b.zeroExtend 32), space := .txbuf, addr := a, width := 1 }
  | .regWrFlags v => regWrRecord 0x04 v
  | .regWrIrqEn v => regWrRecord 0x08 v
  | .regWrTxLen v => regWrRecord 0x30 v
  | .regWrPeerId v => regWrRecord 0x2C v
  | .regWrCfgMode v => regWrRecord 0x10 v
  | .regWrCfgTslot v => regWrRecord 0x14 v
  | .regWrCfgTidle v => regWrRecord 0x18 v
  | .regWrCfgTack v => regWrRecord 0x1C v
  | .regWrCfgMaxRetry v => regWrRecord 0x20 v
  | .regWrCfgAmbig v => regWrRecord 0x24 v
  | .busError a => .bus a
  | .txHoldIdle => .txv 0b0000000
  | .txHoldFailed => .txv 0b1100000
  | .txWaitSlot => .txv 0b0100000
  | .txEmit => .txv 0b0110000
  | .txEmitLast => .txv 0b0111000
  | .txAcked => .txv 0b1000100
  | .txWait => .txv 0b1000000
  | .txRetx => .txv 0b1000010
  | .txFail => .txv 0b1000011
  | .rxIgnore => .rxvP1 false false false
  | .rxStart => .rxvP1 false true false
  | .rxCapture => .rxvP1 true false false
  | .rxWaitStart => .rxvP3 (.opened false)
  | .rxWaitCapture => .rxvP3 (.wasOpen false true false)
  | .rxWaitQuiet => .rxvP3 (.wasOpen false false false)
  | .rxClose => .rxvP3 (.wasOpen false false true)
  | .rxDropErr e => .rxo (.err e) false false
  | .rxDropHdr => .rxo (.ok []) false false
  | .rxDup s => .rxo (.ok [Machine.headerByte s]) true false
  | .rxBusy s => .rxo (.ok [Machine.headerByte s]) false true
  | .rxDeliver s m => .rxo (.ok (Machine.headerByte s :: m)) false false
  | .btEncode bits t0 T => .func (.btEncode bits t0 T)
  | .btSlot d T => .func (.btSlot d T)
  | .btDecodeFixed ts r T W M => .func (.btDecodeFixed ts r T W M)
  | .btDecodeReanchor ts r T W M => .func (.btDecodeReanchor ts r T W M)
  | .assemble ks W => .func (.assemble ks W)
  | .crc32 p => .func (.crc32 p)
  | .crc32le p => .func (.crc32le p)
  | .frEscape body => .func (.frEscape body)
  | .frEncode p => .func (.frEncode p)
  | .frUnescape raw => .func (.frUnescape raw)
  | .frDecode bits bodyMax => .func (.frDecode bits bodyMax)

/-! The operation table's own numbering of bits. -/

/-- The record of an instruction whose bits the operation table numbers as `w`. The table gives bits to three formats:
32 bits are `CMD`, 8 bits are `HDR` where bits 7:1 are 0 (its mask 0xFE) and else `WIRE`, an `ESC` taking its next byte,
bits 15:8, which is 0 where the row has 8 bits only. The table does not say which format a word of 8 bits is of: log 3. -/
def tableRecord (nbits w : Nat) : Option Record :=
  if nbits = 32 then some (.cmd (BitVec.ofNat 32 w))
  else if nbits = 16 then some (.wire (BitVec.ofNat 8 w) (some (BitVec.ofNat 8 (w / 256))))
  else if nbits = 8 then
    if w < 2 then some (.hdr (BitVec.ofNat 8 w))
    else if w = 0x7D then some (.wire 0x7D (some 0))
    else some (.wire (BitVec.ofNat 8 w) none)
  else none

/-- The instruction the decoder reads from an instruction whose bits are `w`; none where the table has no such row. -/
def decodeTableWord (nbits w : Nat) : Option Instr := (tableRecord nbits w).map decode

end Sys2Proof
end

