-- ==== Sys2Proof/Machine/State.lean ====
section
/-! DEFINITION. The state of one instance of the block, as plain data, and the state after reset (10_state.md). -/

namespace Sys2Proof.Machine

/-- `TX_STATE` (10_state.md R21); the codes `100` to `111` are never held. -/
inductive TxState where
  | idle | sending | waitingAck | failed
  deriving DecidableEq, Repr

/-- `RX_STATE` (R21). -/
inductive RxState where
  | idle | receiving
  deriving DecidableEq, Repr

/-- `TX_RESULT` (R40); the code 3 is never held. -/
inductive TxResult where
  | none | success | maxRetriesExceeded
  deriving DecidableEq, Repr

/-- `RX_RESULT` (R41). -/
inductive RxResult where
  | none | delivered | duplicate | crcMismatch | truncated | escapeError | headerError | busy
  deriving DecidableEq, Repr

/-- `ERR_CODE` (R29); the code 7 is never written. -/
inductive ErrCode where
  | none | unknownCmd | badState | badLength | noPeer | badConfig | locked
  deriving DecidableEq, Repr

/-- What the operation last performed handed back: the response of a bus access (00_scope.md R10), or the result of a
codec function or a wire format (30_encoding.md R115, R102, R105). The model's own (log 5). -/
inductive Response where
  /-- No response: the operation returns nothing. -/
  | none
  /-- A bus read: value and `ok`. -/
  | read (value : Word) (ok : Bool)
  /-- A bus write: `ok`. -/
  | written (ok : Bool)
  /-- `WIRE.FLAG`: the byte is a frame delimiter. -/
  | delimiter
  /-- `WIRE.ESC`, `WIRE.LIT`: the body byte it stands for. -/
  | bodyByte (b : Byte)
  /-- `HDR`: the sequence bit. -/
  | seqBit (s : Bool)
  /-- `FRAME`: the slots it occupies, in wire order. -/
  | slots (bits : List Bool)
  /-- `BT.ENCODE`: the scheduled actions. -/
  | actions (l : List (Nat × Bool))
  /-- `BT.SLOT`: the slot index. -/
  | slot (k : Int)
  /-- `BT.DECODE`: bitstream, count of ambiguous pulses, overflow. -/
  | recovered (bits : List Bool) (namb : Nat) (ovf : Bool)
  /-- `ASSEMBLE`: bitstream, overflow. -/
  | assembled (bits : List Bool) (ovf : Bool)
  /-- `CRC32`: the value. -/
  | crc (c : Word)
  /-- `CRC32LE`, `FR.ESCAPE`, `FR.ENCODE`: the byte sequence. -/
  | bytes (bs : List Byte)
  /-- `FR.UNESCAPE`, `FR.DECODE`: the verdict. -/
  | verdict (v : Verdict)
  deriving DecidableEq, Repr

/-- The bytes of `TXBUF` and `RXBUF` under their flat addresses (20_memory.md R71), listed where they differ from what
an unlisted address reads as, by rising address (log 9). -/
abbrev Memory := List Host.Cell

/-- The state of one instance. -/
structure State where
  /-- The build-time parameters and the `self_id` strap: constants of the instance, written by no operation (R51). -/
  build : Build
  /-- `NOW` (R23). -/
  now : Nat
  /-- `NOW_HI_SHADOW` (R44). -/
  nowHiShadow : Word
  /-- `FLAGS[7:0]` (R24). -/
  flags : BitVec 8
  /-- `IRQ_EN[7:0]` (R28). -/
  irqEn : BitVec 8
  /-- `ERR_CODE` (R29). -/
  errCode : ErrCode
  /-- `CFG_MODE.REANCHOR` (R30). -/
  reanchor : Bool
  /-- `CFG_TSLOT` (R31). -/
  cfgTslot : Word
  /-- `CFG_TIDLE` (R32). -/
  cfgTidle : Word
  /-- `CFG_TACK` (R33). -/
  cfgTack : Word
  /-- `CFG_MAXRETRY[7:0]` (R34). -/
  cfgMaxRetry : BitVec 8
  /-- `CFG_AMBIG` (R35). -/
  cfgAmbig : Word
  /-- `PEER_ID` (R38). -/
  peerId : Word
  /-- `PEER_VALID` (R25). -/
  peerValid : Bool
  /-- `TX_LEN` (R39). -/
  txLen : Word
  /-- `TXBUF` and `RXBUF` (R45, R46). -/
  mem : Memory
  /-- `RX_LEN` (R42). -/
  rxLen : Word
  /-- `TX_STATE` (R21). -/
  txState : TxState
  /-- `TX_IDX` (R21). -/
  txIdx : Nat
  /-- `TX_SEQ` (R25). -/
  txSeq : Bool
  /-- `ACK_SEEN` (R25). -/
  ackSeen : Bool
  /-- `TX_FRAME`; `TX_FRAME_LEN` is its length (R47). -/
  txFrame : List Byte
  /-- `TX_T0` (R48). -/
  txT0 : Nat
  /-- `TX_DEADLINE` (R48). -/
  txDeadline : Nat
  /-- `TX_RETRY` (R48). -/
  txRetry : BitVec 9
  /-- `TX_LAST_RETRIES` (R48). -/
  txLastRetries : BitVec 9
  /-- `TX_RESULT` (R40). -/
  txResult : TxResult
  /-- `RX_EN` (R25). -/
  rxEn : Bool
  /-- `RX_STATE` (R21). -/
  rxState : RxState
  /-- `RX_TS` (R49). -/
  rxTs : List Nat
  /-- `RX_TFIRST` (R49). -/
  rxTfirst : Nat
  /-- `RX_TLAST` (R49). -/
  rxTlast : Nat
  /-- `RX_SESSION` (R25). -/
  rxSession : Bool
  /-- `RX_LASTSEQ` (R25). -/
  rxLastSeq : Bool
  /-- `RX_RESULT` (R41). -/
  rxResult : RxResult
  /-- `RX_AMBIG[15:0]` (R43). -/
  rxAmbig : BitVec 16
  /-- The output strobe `data_out` of the operation last performed (R22). -/
  dataOut : Bool
  /-- The output strobe `ack_out` of the operation last performed (R22). -/
  ackOut : Bool
  /-- What the operation last performed handed back (log 5, 12). -/
  response : Response
  /-- The operations of the run still to come, the next one first (R51, 20_memory.md R81; log 1). -/
  script : List Record
  deriving DecidableEq, Repr

/-- No operation of this hardware stops it with a fault: every exceptional outcome is recorded and the block goes on
(60_exceptions.md R271, R272; 93_implementation_defined.md section 2). -/
inductive Fault where
  deriving DecidableEq, Repr

/-- The reasons the model refuses a step. -/
inductive Refusal where
  /-- Raised by an arm of `exec` that has no meaning yet. Safe. -/
  | notModelled (mnemonic : String)
  /-- Raised by `TICK`, `TX.EMITLAST` and `TX.RETX` where the no-overflow premise fails: the spec leaves the behaviour
  unspecified and asks a model to refuse (70_reset_and_hazards.md R304; 93 U1; log 6). Safe. -/
  | timeOverflow
  deriving DecidableEq, Repr

/-- The state after `RESET` of an instance with the given build-time parameters (R52). -/
def State.resetOf (b : Build) : State where
  build := b
  now := 0
  nowHiShadow := 0
  flags := 0
  irqEn := 0
  errCode := .none
  reanchor := false
  cfgTslot := BitVec.ofNat 32 resetTslot
  cfgTidle := BitVec.ofNat 32 b.resetTidle
  cfgTack := BitVec.ofNat 32 b.resetTack
  cfgMaxRetry := BitVec.ofNat 8 resetMaxRetry
  cfgAmbig := BitVec.ofNat 32 resetAmbig
  peerId := 0
  peerValid := false
  txLen := 0
  mem := []
  rxLen := 0
  txState := .idle
  txIdx := 0
  txSeq := false
  ackSeen := false
  txFrame := []
  txT0 := 0
  txDeadline := 0
  txRetry := 0
  txLastRetries := 0
  txResult := .none
  rxEn := false
  rxState := .idle
  rxTs := []
  rxTfirst := 0
  rxTlast := 0
  rxSession := false
  rxLastSeq := false
  rxResult := .none
  rxAmbig := 0
  dataOut := false
  ackOut := false
  response := .none
  script := []

/-- The machine right after reset, for the instance with the default parameters (R52, 00_scope.md R6). -/
def State.reset : State := State.resetOf Build.default

end Sys2Proof.Machine
end

