-- ==== Sys2Proof/Machine/Flags.lean ====
section
/-! DEFINITION. `FLAGS`, `IRQ_EN` and the interrupt line (10_state.md R24, R28; 60_exceptions.md R267, R268). -/

namespace Sys2Proof.Machine

/-- The eight event flags (R24). -/
inductive Flag where
  | txDone | txFail | rxMsg | rxDup | rxErr | rxOvf | cmdErr | ambig
  deriving DecidableEq, Repr

/-- The bit number of a flag (R24). -/
def Flag.bit : Flag → Nat
  | .txDone => 0
  | .txFail => 1
  | .rxMsg => 2
  | .rxDup => 3
  | .rxErr => 4
  | .rxOvf => 5
  | .cmdErr => 6
  | .ambig => 7

/-- The mask of a flag in `FLAGS[7:0]`. -/
def Flag.mask (f : Flag) : BitVec 8 := 1#8 <<< f.bit

/-- Whether a flag is pending (R267). -/
def State.hasFlag (f : Flag) (s : State) : Bool := s.flags.getLsbD f.bit

/-- `FLAGS.f <- 1` (R24). -/
def State.setFlag (f : Flag) (s : State) : State := { s with flags := s.flags ||| f.mask }

/-- `FLAGS <- FLAGS AND NOT v`, the host's write-one-to-clear and `SEND`'s clearing (44_host_interface.md R236,
42_arq_sender.md R181). This is what stands for a return from an event (60_exceptions.md R272). -/
def State.clearFlags (v : BitVec 8) (s : State) : State := { s with flags := s.flags &&& ~~~v }

/-- The level output `irq` (R268). -/
def State.irq (s : State) : Bool := (s.flags &&& s.irqEn) != 0#8

/-- The port `out_target` (10_state.md R22). -/
def State.outTarget (s : State) : Word := s.peerId

end Sys2Proof.Machine
end

