-- ==== Sys2Proof/Machine/Ops.lean ====
section
/-! DEFINITION. The named operations over the memory and the state that the meanings share: bytes of the buffers, the
outputs of an operation, raising an event, and fetching the next operation of the script. -/

namespace Sys2Proof.Machine

/-- What a byte of a buffer that nothing has written reads as: 0x00 (10_state.md R45, R46, R52). -/
def unlistedByte : Byte := 0x00

/-- The byte at a flat address. -/
def Memory.read : Memory → Nat → Byte
  | [], _ => unlistedByte
  | (k, b) :: m, a => if k = a then b else Memory.read m a

/-- Write one byte, keeping the canonical form: addresses rising, no entry equal to the unlisted byte. -/
def Memory.write : Memory → Nat → Byte → Memory
  | [], a, v => if v = unlistedByte then [] else [(a, v)]
  | (k, b) :: m, a, v =>
    if a < k then (if v = unlistedByte then (k, b) :: m else (a, v) :: (k, b) :: m)
    else if a = k then (if v = unlistedByte then m else (a, v) :: m)
    else (k, b) :: Memory.write m a v

/-- Write a sequence of bytes from an address upward. -/
def Memory.writeBytes : Memory → Nat → List Byte → Memory
  | m, _, [] => m
  | m, a, b :: bs => Memory.writeBytes (Memory.write m a b) (a + 1) bs

/-- Read `n` bytes from an address upward. -/
def Memory.readBytes (m : Memory) : Nat → Nat → List Byte
  | _, 0 => []
  | a, n + 1 => Memory.read m a :: Memory.readBytes m (a + 1) n

/-- Every address of a memory lies above `lo`, the addresses rise, and no entry equals the unlisted byte. -/
def Memory.wfAbove : Nat → Memory → Bool
  | _, [] => true
  | lo, (k, b) :: m => decide (lo ≤ k) && (b != unlistedByte) && Memory.wfAbove (k + 1) m

/-- The canonical form of a memory. -/
def Memory.wf (m : Memory) : Bool := Memory.wfAbove 0 m

/-- End an operation that drives no strobe: both output strobes are 0 (00_scope.md R10: "A strobe not emitted in a tick
is 0 in that tick") and the response is the one given (log 12). -/
def State.answer (r : Response) (s : State) : State :=
  { s with dataOut := false, ackOut := false, response := r }

/-- Begin a tick or an operation of a tick: strobes 0, no response (R10). -/
def State.quiet (s : State) : State := s.answer .none

/-! Raising an event: what this hardware has for taking an exception (60_exceptions.md R271). -/

/-- The events of 60_exceptions.md R260 to R266. -/
inductive Event where
  | frameError (e : FrameError)
  | headerError
  | rxBusy
  | deliveryFailure
  | timingAmbiguity (n : Nat)
  | cmdReject (code : ErrCode)
  | busError
  deriving DecidableEq, Repr

/-- The code of a `FrameError` in `RX_STATUS.RESULT` (R260). -/
def rxResultOf : FrameError → RxResult
  | .crcMismatch => .crcMismatch
  | .truncated => .truncated
  | .escapeError => .escapeError

/-- `raise E`: write the code register and the flag of the event's row in R265, and nothing else (R271). -/
def State.raise (ev : Event) (s : State) : State :=
  match ev with
  | .frameError e => { s with rxResult := rxResultOf e }.setFlag .rxErr                                  -- R260
  | .headerError => { s with rxResult := .headerError }.setFlag .rxErr                                   -- R262
  | .rxBusy => { s with rxResult := .busy }.setFlag .rxErr                                               -- R262
  | .deliveryFailure => { s with txResult := .maxRetriesExceeded }.setFlag .txFail                       -- R261
  | .timingAmbiguity n => { s with rxAmbig := BitVec.ofNat 16 (min n 0xFFFF) }.setFlag .ambig            -- R263
  | .cmdReject code => { s with errCode := code }.setFlag .cmdErr                                        -- R264
  | .busError => s                                                                                       -- R266

/-- Take the next operation of the script. An empty script is a line that stays silent and a host that does nothing:
`TICK 0 0` (70_reset_and_hazards.md R290: "the block does nothing but count `NOW` until the host acts"; log 1). -/
def State.fetch (s : State) : Instr × State :=
  match s.script with
  | [] => (.tick false false, s)
  | r :: rest => (decode r, { s with script := rest })

/-- Place an instruction whose bits the operation table numbers as `w` before the rest of the script; a number of bits
that no row has places nothing. -/
def State.place (s : State) (nbits w : Nat) : State := { s with script := (tableRecord nbits w).toList ++ s.script }

end Sys2Proof.Machine
end

