-- ==== Sys2Proof/Machine/Operands.lean ====
section
/-! DEFINITION. The operands of the operations, read from the state: configuration as numbers, the two predicates of
10_state.md R36, the no-overflow premise, the read-out of every register, the message and frame of a send, and the
dispatch vectors of 30_encoding.md R112 to R114. -/

namespace Sys2Proof.Machine

/-- `T` = `CFG_TSLOT` (R31). -/
def State.tslot (s : State) : Nat := s.cfgTslot.toNat

/-- `T_IDLE` = `CFG_TIDLE` (R32). -/
def State.tidle (s : State) : Nat := s.cfgTidle.toNat

/-- `T_ACK` = `CFG_TACK` (R33). -/
def State.tack (s : State) : Nat := s.cfgTack.toNat

/-- `cfg_ok` (R36). -/
def State.cfgOk (s : State) : Bool :=
  decide (1 ≤ s.tslot) && decide (s.tslot < s.tidle) && decide (1 ≤ s.tack)

/-- `quiescent` (R36). -/
def State.quiescent (s : State) : Bool :=
  (s.txState == .idle || s.txState == .failed) && s.rxState == .idle && !s.rxEn

/-- The no-overflow premise (70_reset_and_hazards.md R304). -/
def State.timeOk (s : State) : Bool :=
  decide (s.now + s.tack + s.tidle + s.build.frameMaxBits * s.tslot + 2 < 2 ^ s.build.tsW)

/-! Read-outs. -/

/-- The code of `TX_STATE` (R21). -/
def TxState.code : TxState → BitVec 3
  | .idle => 0
  | .sending => 1
  | .waitingAck => 2
  | .failed => 3

/-- The code of `RX_STATE` (R21). -/
def RxState.code : RxState → BitVec 1
  | .idle => 0
  | .receiving => 1

/-- The code of `TX_RESULT` (R40). -/
def TxResult.code : TxResult → BitVec 2
  | .none => 0
  | .success => 1
  | .maxRetriesExceeded => 2

/-- The code of `RX_RESULT` (R41). -/
def RxResult.code : RxResult → BitVec 3
  | .none => 0
  | .delivered => 1
  | .duplicate => 2
  | .crcMismatch => 3
  | .truncated => 4
  | .escapeError => 5
  | .headerError => 6
  | .busy => 7

/-- The code of `ERR_CODE` (R29). -/
def ErrCode.code : ErrCode → BitVec 3
  | .none => 0
  | .unknownCmd => 1
  | .badState => 2
  | .badLength => 3
  | .noPeer => 4
  | .badConfig => 5
  | .locked => 6

/-- The word `TX_STATUS` (R40, 44_host_interface.md R231). -/
def State.txStatus (s : State) : Word :=
  s.txState.code.zeroExtend 32 ||| ((BitVec.ofBool s.txSeq).zeroExtend 32 <<< 3)
    ||| (s.txResult.code.zeroExtend 32 <<< 4) ||| (s.txRetry.zeroExtend 32 <<< 6)
    ||| (s.txLastRetries.zeroExtend 32 <<< 15)

/-- The word `RX_STATUS` (R41, 44_host_interface.md R231). -/
def State.rxStatus (s : State) : Word :=
  s.rxState.code.zeroExtend 32 ||| ((BitVec.ofBool s.rxEn).zeroExtend 32 <<< 1)
    ||| ((BitVec.ofBool s.rxSession).zeroExtend 32 <<< 2) ||| ((BitVec.ofBool s.rxLastSeq).zeroExtend 32 <<< 3)
    ||| (s.rxResult.code.zeroExtend 32 <<< 4)

/-- `NOW[31:0]` (R44). -/
def State.nowLo (s : State) : Word := BitVec.ofNat 32 s.now

/-- `NOW[63:32]` (R44); with `TS_W < 64` the missing high bits are 0. -/
def State.nowHi (s : State) : Word := BitVec.ofNat 32 (s.now / 2 ^ 32)

/-- The value a read of a register returns (44_host_interface.md R231). -/
def State.regValue (s : State) : Reg → Word
  | .cmd => 0
  | .flags => s.flags.zeroExtend 32
  | .irqEn => s.irqEn.zeroExtend 32
  | .errCode => s.errCode.code.zeroExtend 32
  | .cfgMode => (BitVec.ofBool s.reanchor).zeroExtend 32
  | .cfgTslot => s.cfgTslot
  | .cfgTidle => s.cfgTidle
  | .cfgTack => s.cfgTack
  | .cfgMaxRetry => s.cfgMaxRetry.zeroExtend 32
  | .cfgAmbig => s.cfgAmbig
  | .selfId => s.build.selfId
  | .peerId => s.peerId
  | .txLen => s.txLen
  | .txStatus => s.txStatus
  | .rxStatus => s.rxStatus
  | .rxLen => s.rxLen
  | .rxAmbig => s.rxAmbig.zeroExtend 32
  | .nowLo => s.nowLo
  | .nowHi => s.nowHiShadow

/-- The flat address of byte `a` of a buffer (20_memory.md R71). -/
def bufAddr : BufSpace → Nat → Nat
  | .txbuf, a => txbufAddr a
  | .rxbuf, a => rxbufAddr a

/-! The operands of a send. -/

/-- The message in `TXBUF[0 .. TX_LEN-1]` (42_arq_sender.md R181). -/
def State.message (s : State) : List Byte := s.mem.readBytes (txbufAddr 0) s.txLen.toNat

/-- The frame a `SEND` builds (R181, 10_state.md R47). -/
def State.newFrame (s : State) : List Byte := frEncode (headerByte s.txSeq :: s.message)

/-- `TX_NBITS` (10_state.md R47). -/
def State.txNbits (s : State) : Nat := 8 * s.txFrame.length

/-- Bit `i` of `TX_FRAME`: bit `7 - (i mod 8)` of byte `floor(i / 8)` (10_state.md R47). Beyond the frame, a free value
(log 11). -/
def State.frameBit (s : State) (i : Nat) : Bool :=
  match s.txFrame[i / 8]? with
  | some b => b.getLsbD (7 - i % 8)
  | none => Config.bitBeyondFrame i

/-! The sender's dispatch (30_encoding.md R112). -/

/-- `d` (due): `now = TX_T0 + TX_IDX * T`. -/
def State.due (s : State) : Bool := s.now == s.txT0 + s.txIdx * s.tslot

/-- `l` (last): `TX_IDX = TX_NBITS - 1`. -/
def State.lastBit (s : State) : Bool := s.txIdx + 1 == s.txNbits

/-- `t` (timed out): `now >= TX_DEADLINE`. -/
def State.timedOut (s : State) : Bool := decide (s.txDeadline ≤ s.now)

/-- `x` (exhausted): `TX_RETRY >= MAX_RETRY`. -/
def State.exhausted (s : State) : Bool := decide (s.cfgMaxRetry.toNat ≤ s.txRetry.toNat)

/-- The sender operation that fires in phase P4 (42_arq_sender.md R180 to R190). -/
def State.txOp (s : State) : TxOp :=
  match s.txState with
  | .idle => .holdIdle
  | .failed => .holdFailed
  | .sending => if s.due then (if s.lastBit then .emitLast else .emit) else .waitSlot
  | .waitingAck =>
    if s.ackSeen then .acked
    else if s.timedOut then (if s.exhausted then .fail else .retx)
    else .wait

/-- The vector `sssdlktx` (R112). -/
def State.txVector (s : State) : BitVec 8 :=
  s.txState.code ++ BitVec.ofBool s.due ++ BitVec.ofBool s.lastBit ++ BitVec.ofBool s.ackSeen
    ++ BitVec.ofBool s.timedOut ++ BitVec.ofBool s.exhausted

/-! The receiver's dispatch (30_encoding.md R113, R114). -/

/-- `now - RX_TLAST > T_IDLE`. -/
def State.idleExpired (s : State) : Bool := decide (s.rxTlast + s.tidle < s.now)

/-- The vector `redi` of a tick with `data_in = d` (R113). -/
def State.rxVector (s : State) (d : Bool) : BitVec 4 :=
  s.rxState.code ++ BitVec.ofBool s.rxEn ++ BitVec.ofBool d ++ BitVec.ofBool s.idleExpired

/-- `q` (duplicate): `RX_SESSION = 1 and s = RX_LASTSEQ` (R114). -/
def State.isDuplicate (q : Bool) (s : State) : Bool := s.rxSession && s.rxLastSeq == q

/-- The vector `fhqb` of a decode verdict (R114). The rule evaluates it in priority order, and its rows write `-` past the
deciding bit: there the model writes 0, for `h`, `q` and `b` where `f = 0`, and for `q` and `b` where `h = 0`, also while
`RX_MSG = 1` (DESIGN CHOICE, log 20). Past `q = 1`, `b` is `RX_MSG`. No outcome depends on these bits. -/
def State.rxoVector (s : State) (v : Verdict) : BitVec 4 :=
  match v with
  | .err _ => 0b0000#4
  | .ok [] => 0b1000#4
  | .ok (h :: _) =>
    BitVec.ofBool true ++ BitVec.ofBool true ++ BitVec.ofBool (s.isDuplicate (h.getLsbD 0))
      ++ BitVec.ofBool (s.hasFlag .rxMsg)

/-- The reference time of the receiver's decode, `RX_TFIRST - T` (40_bit_timing.md R138). -/
def State.rxTref (s : State) : Int := (s.rxTfirst : Int) - (s.tslot : Int)

/-- What `BT.DECODE` recovers from the window (43_arq_receiver.md R205). -/
def State.recovered (s : State) : Recovered :=
  btDecode s.reanchor s.rxTs s.rxTref s.tslot s.build.rxWindowBits s.cfgAmbig.toNat

/-- The verdict of the decode attempt on the window (R205). -/
def State.windowVerdict (s : State) : Verdict := frDecode s.recovered.bits s.build.bodyMax

end Sys2Proof.Machine
end

