-- ==== Sys2Proof/Machine/Codec.lean ====
section
/-! DEFINITION. The meanings of the rows of formats `WIRE`, `HDR`, `FRAME` and `FUNC`: they write no state of the block
(30_encoding.md R115) and hand their result back as the response (log 5). -/

namespace Sys2Proof.Machine

/-- `WIRE.FLAG` (R102): a frame delimiter. -/
def execWireFlag (s : State) : Host.Outcome State Fault Refusal := .next (s.answer .delimiter)

/-- `WIRE.ESC x` (R103): the body byte `x XOR 0x20`. -/
def execWireEsc (x : Byte) (s : State) : Host.Outcome State Fault Refusal :=
  .next (s.answer (.bodyByte (x ^^^ maskByte)))

/-- `WIRE.LIT b` (R102): a literal body byte stands for itself. -/
def execWireLit (b : Byte) (s : State) : Host.Outcome State Fault Refusal := .next (s.answer (.bodyByte b))

/-- `HDR` (R105): the frame's sequence bit. -/
def execHdr (q : Bool) (s : State) : Host.Outcome State Fault Refusal := .next (s.answer (.seqBit q))

/-- `FRAME` (R101, R104): the slots that the Raw Frame of a payload occupies, in wire order. -/
def execFrame (p : List Byte) (s : State) : Host.Outcome State Fault Refusal :=
  .next (s.answer (.slots (bitsOf (frEncode p))))

/-- `BT.ENCODE` (40_bit_timing.md R131). -/
def execBtEncode (bits : List Bool) (t0 T : Nat) (s : State) : Host.Outcome State Fault Refusal :=
  .next (s.answer (.actions (btEncode bits t0 T)))

/-- `BT.SLOT` (40_bit_timing.md R133). -/
def execBtSlot (d : Int) (T : Nat) (s : State) : Host.Outcome State Fault Refusal :=
  .next (s.answer (.slot (btSlot d T)))

/-- A recovered window as a response. -/
def Recovered.response (r : Recovered) : Response := .recovered r.bits r.namb r.ovf

/-- `BT.DECODE`, `REANCHOR = 0` (40_bit_timing.md R134). -/
def execBtDecodeFixed (ts : List Nat) (tref : Int) (T W M : Nat) (s : State) : Host.Outcome State Fault Refusal :=
  .next (s.answer (btDecodeFixed ts tref T W M).response)

/-- `BT.DECODE`, `REANCHOR = 1` (40_bit_timing.md R135). -/
def execBtDecodeReanchor (ts : List Nat) (tref : Int) (T W M : Nat) (s : State) : Host.Outcome State Fault Refusal :=
  .next (s.answer (btDecodeReanchor ts tref T W M).response)

/-- `ASSEMBLE` (40_bit_timing.md R137). -/
def execAssemble (ks : List Nat) (W : Nat) (s : State) : Host.Outcome State Fault Refusal :=
  .next (s.answer (.assembled (assemble ks W).1 (assemble ks W).2))

/-- `CRC32` (41_frame_codec.md R150). -/
def execCrc32 (p : List Byte) (s : State) : Host.Outcome State Fault Refusal := .next (s.answer (.crc (crc32 p)))

/-- `CRC32LE` (41_frame_codec.md R151). -/
def execCrc32le (p : List Byte) (s : State) : Host.Outcome State Fault Refusal := .next (s.answer (.bytes (crc32le p)))

/-- `FR.ESCAPE` (41_frame_codec.md R152). -/
def execFrEscape (body : List Byte) (s : State) : Host.Outcome State Fault Refusal :=
  .next (s.answer (.bytes (frEscape body)))

/-- `FR.ENCODE` (41_frame_codec.md R153). -/
def execFrEncode (p : List Byte) (s : State) : Host.Outcome State Fault Refusal :=
  .next (s.answer (.bytes (frEncode p)))

/-- `FR.UNESCAPE` (41_frame_codec.md R155). -/
def execFrUnescape (raw : List Byte) (s : State) : Host.Outcome State Fault Refusal :=
  .next (s.answer (.verdict (frUnescape raw)))

/-- `FR.DECODE` (41_frame_codec.md R156). -/
def execFrDecode (bits : List Bool) (bodyMax : Nat) (s : State) : Host.Outcome State Fault Refusal :=
  .next (s.answer (.verdict (frDecode bits bodyMax)))

end Sys2Proof.Machine
end

