-- ==== Sys2Proof/Machine/Receiver.lean ====
section
/-! DEFINITION. The receiver role (43_arq_receiver.md): the effect of its commands and of the operations of phases P1
and P3 as functions of the state, the two phases, and the meaning of each row.

A row of format `RXV` or `RXO` performed alone is that phase, or that outcome of a decode attempt, with the strobe, the
verdict's error, sequence bit and message as the row gives them: where the state does not select it, it does not fire
and writes nothing (30_encoding.md R113, R114; log 4). -/

namespace Sys2Proof.Machine

/-- `RX_ENABLE` (R200). -/
def State.doRxEnable (s : State) : State :=
  if !s.peerValid then s.raise (.cmdReject .noPeer)
  else if !s.cfgOk then s.raise (.cmdReject .badConfig)
  else { s with rxEn := true }

/-- `RX_DISABLE` (R201). -/
def State.doRxDisable (s : State) : State := { s with rxEn := false }

/-- `RX.START` (R202). -/
def State.doStart (s : State) : State :=
  { s with rxState := .receiving, rxTs := [s.now], rxTfirst := s.now, rxTlast := s.now }

/-- `RX.CAPTURE` (R203). -/
def State.doCapture (s : State) : State :=
  if s.rxTs.length < s.build.rxTsDepth then { s with rxTlast := s.now, rxTs := s.rxTs ++ [s.now] }
  else { s with rxTlast := s.now }.setFlag .rxOvf

/-- Phase P1 (20_memory.md R80, 30_encoding.md R113): `RX.START`, `RX.CAPTURE` or `RX.IGNORE` where `data_in = 1`. -/
def State.phaseCapture (d : Bool) (s : State) : State :=
  if d then
    match s.rxState, s.rxEn with
    | .receiving, _ => s.doCapture
    | .idle, true => s.doStart
    | .idle, false => s
  else s

/-- `emit ACK` (R206). -/
def State.emitAck (s : State) : State := { s with ackOut := true }

/-- `RX.DROP_ERR(e)` (R207). -/
def State.doDropErr (e : FrameError) (s : State) : State := s.raise (.frameError e)

/-- `RX.DROP_HDR` (R208). -/
def State.doDropHdr (s : State) : State := s.raise .headerError

/-- `RX.DUP` (R209). -/
def State.doDup (s : State) : State := ({ s with rxResult := .duplicate }.setFlag .rxDup).emitAck

/-- `RX.BUSY` (R210). -/
def State.doBusy (s : State) : State := s.raise .rxBusy

/-- `RX.DELIVER(q, m)` (R211). -/
def State.doDeliver (q : Bool) (m : List Byte) (s : State) : State :=
  ({ s with
      mem := s.mem.writeBytes (rxbufAddr 0) m
      rxLen := BitVec.ofNat 32 m.length
      rxSession := true
      rxLastSeq := q
      rxResult := .delivered }.setFlag .rxMsg).emitAck

/-- The one outcome of a decode attempt, by the priority of R114 (R205). -/
def State.doOutcome (v : Verdict) (s : State) : State :=
  match v with
  | .err e => s.doDropErr e
  | .ok [] => s.doDropHdr
  | .ok (h :: m) =>
    if s.isDuplicate (h.getLsbD 0) then s.doDup
    else if s.hasFlag .rxMsg then s.doBusy
    else s.doDeliver (h.getLsbD 0) m

/-- The count of ambiguous pulses of a decode attempt: `RX_AMBIG` always, and the event where it is not zero (R205,
60_exceptions.md R263). -/
def State.recordAmbig (n : Nat) (s : State) : State :=
  if 0 < n then s.raise (.timingAmbiguity n) else { s with rxAmbig := 0 }

/-- The window overflow of a decode attempt (R205). -/
def State.recordOvf (ovf : Bool) (s : State) : State := if ovf then s.setFlag .rxOvf else s

/-- `RX.CLOSE` (R205). -/
def State.doClose (s : State) : State :=
  { ((s.recordAmbig s.recovered.namb).recordOvf s.recovered.ovf).doOutcome s.windowVerdict with
    rxTs := [], rxState := .idle }

/-- Phase P3 (20_memory.md R80): `RX.CLOSE`, or `RX.WAIT`, or nothing. -/
def State.phaseClose (s : State) : State :=
  match s.rxState with
  | .receiving => if s.idleExpired then s.doClose else s
  | .idle => s

/-! Meanings. -/

/-- `RX_ENABLE` (R200): `REG.WR CMD, 2`. -/
def execRxEnable (s : State) : Host.Outcome State Fault Refusal := .next (s.doRxEnable.answer (.written true))

/-- `RX_DISABLE` (R201): `REG.WR CMD, 3`. -/
def execRxDisable (s : State) : Host.Outcome State Fault Refusal := .next (s.doRxDisable.answer (.written true))

/-- `RX.IGNORE` (R212): the pulse is dropped, no state is written. -/
def execRxIgnore (s : State) : Host.Outcome State Fault Refusal := .next s.quiet

/-- `RX.START` (R202). -/
def execRxStart (s : State) : Host.Outcome State Fault Refusal :=
  .next (match s.rxState, s.rxEn with
    | .idle, true => s.quiet.doStart
    | .idle, false => s.quiet
    | .receiving, _ => s.quiet)

/-- `RX.CAPTURE` (R203). -/
def execRxCapture (s : State) : Host.Outcome State Fault Refusal :=
  .next (match s.rxState with
    | .receiving => s.quiet.doCapture
    | .idle => s.quiet)

/-- `RX.WAIT` in the tick of `RX.START` (R204): no state is written. -/
def execRxWaitStart (s : State) : Host.Outcome State Fault Refusal := .next s.quiet

/-- `RX.WAIT` in the tick of an `RX.CAPTURE` (R204): no state is written. -/
def execRxWaitCapture (s : State) : Host.Outcome State Fault Refusal := .next s.quiet

/-- `RX.WAIT` in a tick with no pulse (R204): no state is written. -/
def execRxWaitQuiet (s : State) : Host.Outcome State Fault Refusal := .next s.quiet

/-- `RX.CLOSE` (R205). -/
def execRxClose (s : State) : Host.Outcome State Fault Refusal := .next s.quiet.phaseClose

/-- `RX.DROP_ERR(e)` (R207). -/
def execRxDropErr (e : FrameError) (s : State) : Host.Outcome State Fault Refusal := .next (s.quiet.doDropErr e)

/-- `RX.DROP_HDR` (R208). -/
def execRxDropHdr (s : State) : Host.Outcome State Fault Refusal := .next s.quiet.doDropHdr

/-- `RX.DUP` (R209) for a frame with sequence bit `q`. -/
def execRxDup (q : Bool) (s : State) : Host.Outcome State Fault Refusal :=
  .next (if s.isDuplicate q then s.quiet.doDup else s.quiet)

/-- `RX.BUSY` (R210) for a frame with sequence bit `q`. -/
def execRxBusy (q : Bool) (s : State) : Host.Outcome State Fault Refusal :=
  .next (if !s.isDuplicate q && s.hasFlag .rxMsg then s.quiet.doBusy else s.quiet)

/-- `RX.DELIVER(q, m)` (R211), `0 <= len(m) <= MAX_PAYLOAD`. -/
def execRxDeliver (q : Bool) (m : List Byte) (s : State) : Host.Outcome State Fault Refusal :=
  .next (if !s.isDuplicate q && !s.hasFlag .rxMsg && decide (m.length ≤ s.build.maxPayload) then s.quiet.doDeliver q m
    else s.quiet)

end Sys2Proof.Machine
end

