-- ==== Sys2Proof/Machine/Sender.lean ====
section
/-! DEFINITION. The sender role (42_arq_sender.md): the effect of `SEND` and of the operations of phases P2 and P4 as
functions of the state, phase P4 itself, and the meaning of each row.

A row of format `TXV` performed alone is phase P4 of a tick in which it is the operation dispatched: where the vector
of the state is not one of its row's, it does not fire and writes nothing (30_encoding.md R112: exactly one operation
fires; log 4). -/

namespace Sys2Proof.Machine

/-- `SEND` (R181): the checks in the order written, then the effect. -/
def State.doSend (s : State) : State :=
  if !(s.txState == .idle || s.txState == .failed) then s.raise (.cmdReject .badState)
  else if !s.peerValid then s.raise (.cmdReject .noPeer)
  else if s.build.maxPayload < s.txLen.toNat then s.raise (.cmdReject .badLength)
  else if !s.cfgOk then s.raise (.cmdReject .badConfig)
  else
    { s with
      txFrame := s.newFrame
      txState := .sending
      txT0 := s.now
      txIdx := 0
      txRetry := 0
      txResult := .none
      ackSeen := false }.clearFlags (Flag.txDone.mask ||| Flag.txFail.mask)

/-- `ACK.CAPTURE` (R185). -/
def State.doAckCapture (s : State) : State :=
  match s.txState with
  | .waitingAck => { s with ackSeen := true }
  | .idle | .sending | .failed => s

/-- `TX.EMIT` (R183). -/
def State.doEmit (s : State) : State := { s with dataOut := s.frameBit s.txIdx, txIdx := s.txIdx + 1 }

/-- `TX.EMITLAST` (R184). -/
def State.doEmitLast (s : State) : State :=
  { s with
    dataOut := s.frameBit s.txIdx
    txIdx := s.txNbits
    txState := .waitingAck
    txDeadline := s.now + s.tack
    ackSeen := false }

/-- `TX.ACKED` (R186). -/
def State.doAcked (s : State) : State :=
  { s with
    txLastRetries := s.txRetry
    txRetry := 0
    txSeq := !s.txSeq
    txState := .idle
    txResult := .success
    ackSeen := false }.setFlag .txDone

/-- `TX.RETX` (R188). -/
def State.doRetx (s : State) : State :=
  { s with
    txRetry := s.txRetry + 1
    txState := .sending
    txT0 := s.now + 1
    txIdx := 0
    ackSeen := false }

/-- `TX.FAIL` (R189), which raises `DeliveryFailure(MaxRetriesExceeded)`. -/
def State.doFail (s : State) : State :=
  { s with
    txRetry := s.txRetry + 1
    txState := .failed
    ackSeen := false }.raise .deliveryFailure

/-- Phase P4: the one operation that the vector selects (30_encoding.md R112; 20_memory.md R80). -/
def State.phaseTx (s : State) : State :=
  match s.txOp with
  | .holdIdle => s
  | .holdFailed => s
  | .waitSlot => s
  | .emit => s.doEmit
  | .emitLast => s.doEmitLast
  | .acked => s.doAcked
  | .wait => s
  | .retx => s.doRetx
  | .fail => s.doFail

/-- Phase P2 (20_memory.md R80). -/
def State.phaseAck (a : Bool) (s : State) : State := if a then s.doAckCapture else s

/-- A sender operation performed alone (log 4). -/
def State.onTx (op : TxOp) (f : State → State) (s : State) : State := if s.txOp = op then f s else s

/-- A sender operation that stores a sum of times, performed alone: refused where the premise fails (log 6). -/
def onTxTimed (op : TxOp) (f : State → State) (s : State) : Host.Outcome State Fault Refusal :=
  if s.txOp = op && !s.timeOk then .refused .timeOverflow else .next (s.quiet.onTx op f)

/-! Meanings. -/

/-- `SEND` (R181): `REG.WR CMD, 1`. -/
def execSend (s : State) : Host.Outcome State Fault Refusal := .next (s.doSend.answer (.written true))

/-- `ACK.CAPTURE` (R185): phase P2 with `ack_in = 1`. -/
def execAckCapture (s : State) : Host.Outcome State Fault Refusal := .next (s.quiet.phaseAck true)

/-- `TX.HOLD` in IDLE (R182): no state is written. -/
def execTxHoldIdle (s : State) : Host.Outcome State Fault Refusal := .next s.quiet

/-- `TX.HOLD` in FAILED (R182): no state is written. -/
def execTxHoldFailed (s : State) : Host.Outcome State Fault Refusal := .next s.quiet

/-- `TX.WAITSLOT` (R190): no state is written. -/
def execTxWaitSlot (s : State) : Host.Outcome State Fault Refusal := .next s.quiet

/-- `TX.EMIT` (R183). -/
def execTxEmit (s : State) : Host.Outcome State Fault Refusal := .next (s.quiet.onTx .emit State.doEmit)

/-- `TX.EMITLAST` (R184). -/
def execTxEmitLast (s : State) : Host.Outcome State Fault Refusal := onTxTimed .emitLast State.doEmitLast s

/-- `TX.ACKED` (R186). -/
def execTxAcked (s : State) : Host.Outcome State Fault Refusal := .next (s.quiet.onTx .acked State.doAcked)

/-- `TX.WAIT` (R187): no state is written. -/
def execTxWait (s : State) : Host.Outcome State Fault Refusal := .next s.quiet

/-- `TX.RETX` (R188). -/
def execTxRetx (s : State) : Host.Outcome State Fault Refusal := onTxTimed .retx State.doRetx s

/-- `TX.FAIL` (R189). -/
def execTxFail (s : State) : Host.Outcome State Fault Refusal := .next (s.quiet.onTx .fail State.doFail)

end Sys2Proof.Machine
end

