-- ==== Sys2Proof/Machine/HostInterface.lean ====
section
/-! DEFINITION. The host interface (44_host_interface.md): commands, register and buffer accesses, `RESET`, and the
meaning of each row of formats `CMD` and `BUS`. -/

namespace Sys2Proof.Machine

/-- `SOFT_RESET` (R242). -/
def State.doSoftReset (s : State) : State :=
  { s with
    flags := 0
    errCode := .none
    rxLen := 0
    txState := .idle
    txIdx := 0
    txSeq := false
    ackSeen := false
    txFrame := []
    txT0 := 0
    txDeadline := 0
    txRetry := 0
    txLastRetries := 0
    txResult := .none
    rxEn := false
    rxState := .idle
    rxTs := []
    rxTfirst := 0
    rxTlast := 0
    rxSession := false
    rxLastSeq := false
    rxResult := .none
    rxAmbig := 0 }

/-- The command a 32-bit value encodes (30_encoding.md R108), or its rejection (R109). -/
def State.doCommand (v : Word) (s : State) : State :=
  if v = 0 then s
  else if v = 1 then s.doSend
  else if v = 2 then s.doRxEnable
  else if v = 3 then s.doRxDisable
  else if v = 4 then s.doSoftReset
  else s.raise (.cmdReject .unknownCmd)

/-- A write to a locked register: stored where the block is quiescent, else `CmdReject(LOCKED)` (R238, R239). -/
def State.writeLocked (f : State → State) (s : State) : State :=
  if s.quiescent then f s else s.raise (.cmdReject .locked)

/-- What a 4-byte write to a register does (R232, R236 to R239); to a read-only register, nothing. -/
def State.regWrite (r : Reg) (v : Word) (s : State) : State :=
  match r with
  | .cmd => s.doCommand v
  | .flags => s.clearFlags (v.truncate 8)
  | .irqEn => { s with irqEn := v.truncate 8 }
  | .txLen => { s with txLen := v }
  | .peerId => s.writeLocked fun s => { s with peerId := v, peerValid := true }
  | .cfgMode => s.writeLocked fun s => { s with reanchor := v.getLsbD 0 }
  | .cfgTslot => s.writeLocked fun s => { s with cfgTslot := v }
  | .cfgTidle => s.writeLocked fun s => { s with cfgTidle := v }
  | .cfgTack => s.writeLocked fun s => { s with cfgTack := v }
  | .cfgMaxRetry => s.writeLocked fun s => { s with cfgMaxRetry := v.truncate 8 }
  | .cfgAmbig => s.writeLocked fun s => { s with cfgAmbig := v }
  | .errCode | .selfId | .txStatus | .rxStatus | .rxLen | .rxAmbig | .nowLo | .nowHi => s

/-- The side effect of a register read: only `NOW_LO` has one (R231, 10_state.md R44). -/
def State.regReadEffect (r : Reg) (s : State) : State :=
  match r with
  | .nowLo => { s with nowHiShadow := s.nowHi }
  | .cmd | .flags | .irqEn | .errCode | .cfgMode | .cfgTslot | .cfgTidle | .cfgTack | .cfgMaxRetry | .cfgAmbig
  | .selfId | .peerId | .txLen | .txStatus | .rxStatus | .rxLen | .rxAmbig | .nowHi => s

/-- `RESET` (R243): every state element takes its reset value; the strap and the build-time parameters are not state,
and the rest of the run is still to come. -/
def State.doReset (s : State) : State := { State.resetOf s.build with script := s.script }

/-- `BusError` on a read: value 0, `ok = 0`, no state change (20_memory.md R79, 60_exceptions.md R266). -/
def State.busErrorRead (s : State) : State := (s.raise .busError).answer (.read 0 false)

/-- `BusError` on a write: `ok = 0`, no state change (20_memory.md R79, 60_exceptions.md R266). -/
def State.busErrorWrite (s : State) : State := (s.raise .busError).answer (.written false)

/-- `REG.RD off`, 4 bytes wide (R231). -/
def State.readReg (off : Nat) (s : State) : State :=
  match Reg.at? off with
  | some r => (s.regReadEffect r).answer (.read (s.regValue r) true)
  | none => s.busErrorRead

/-- `REG.WR off, v`, 4 bytes wide (R232). -/
def State.writeReg (off : Nat) (v : Word) (s : State) : State :=
  match Reg.at? off with
  | some r => if r.readOnly then s.busErrorWrite else (s.regWrite r v).answer (.written true)
  | none => s.busErrorWrite

/-- `BUF.RD space, a`, 1 byte wide (R233). -/
def State.readBuf (sp : BufSpace) (a : Nat) (s : State) : State :=
  if s.build.maxPayload ≤ a then s.busErrorRead
  else s.answer (.read ((s.mem.read (bufAddr sp a)).zeroExtend 32) true)

/-- `BUF.WR TXBUF, a, b`, 1 byte wide (R234). -/
def State.writeTxbuf (a : Nat) (b : Byte) (s : State) : State :=
  if s.build.maxPayload ≤ a then s.busErrorWrite
  else { s with mem := s.mem.write (txbufAddr a) b }.answer (.written true)

/-! Meanings, format `CMD`. -/

/-- `NOP` (R241): `REG.WR CMD, 0`. -/
def execNop (s : State) : Host.Outcome State Fault Refusal := .next (s.answer (.written true))

/-- `SOFT_RESET` (R242): `REG.WR CMD, 4`. -/
def execSoftReset (s : State) : Host.Outcome State Fault Refusal := .next (s.doSoftReset.answer (.written true))

/-- `CMD.RESERVED` (30_encoding.md R109): a write to `CMD` of a value that is no command. -/
def execCmdReserved (v : Word) (s : State) : Host.Outcome State Fault Refusal :=
  .next ((s.doCommand v).answer (.written true))

/-! Meanings, format `EVT`. -/

/-- `RESET` (R243). -/
def execReset (s : State) : Host.Outcome State Fault Refusal := .next s.doReset

/-! Meanings, format `BUS`. -/

/-- `REG.RD` (R231). -/
def execRegRd (off : Nat) (s : State) : Host.Outcome State Fault Refusal := .next (s.readReg off)

/-- `REG.WR` (R232). -/
def execRegWr (off : Nat) (v : Word) (s : State) : Host.Outcome State Fault Refusal := .next (s.writeReg off v)

/-- `BUF.RD` (R233). -/
def execBufRd (sp : BufSpace) (a : Nat) (s : State) : Host.Outcome State Fault Refusal := .next (s.readBuf sp a)

/-- `BUF.WR` (R234). -/
def execBufWr (a : Nat) (b : Byte) (s : State) : Host.Outcome State Fault Refusal := .next (s.writeTxbuf a b)

/-- `REG.WR FLAGS` (R236). -/
def execRegWrFlags (v : Word) (s : State) : Host.Outcome State Fault Refusal :=
  .next ((s.regWrite .flags v).answer (.written true))

/-- `REG.WR IRQ_EN` (R237). -/
def execRegWrIrqEn (v : Word) (s : State) : Host.Outcome State Fault Refusal :=
  .next ((s.regWrite .irqEn v).answer (.written true))

/-- `REG.WR TX_LEN` (R237). -/
def execRegWrTxLen (v : Word) (s : State) : Host.Outcome State Fault Refusal :=
  .next ((s.regWrite .txLen v).answer (.written true))

/-- `REG.WR PEER_ID` (R238). -/
def execRegWrPeerId (v : Word) (s : State) : Host.Outcome State Fault Refusal :=
  .next ((s.regWrite .peerId v).answer (.written true))

/-- `REG.WR CFG_MODE` (R239). -/
def execRegWrCfgMode (v : Word) (s : State) : Host.Outcome State Fault Refusal :=
  .next ((s.regWrite .cfgMode v).answer (.written true))

/-- `REG.WR CFG_TSLOT` (R239). -/
def execRegWrCfgTslot (v : Word) (s : State) : Host.Outcome State Fault Refusal :=
  .next ((s.regWrite .cfgTslot v).answer (.written true))

/-- `REG.WR CFG_TIDLE` (R239). -/
def execRegWrCfgTidle (v : Word) (s : State) : Host.Outcome State Fault Refusal :=
  .next ((s.regWrite .cfgTidle v).answer (.written true))

/-- `REG.WR CFG_TACK` (R239). -/
def execRegWrCfgTack (v : Word) (s : State) : Host.Outcome State Fault Refusal :=
  .next ((s.regWrite .cfgTack v).answer (.written true))

/-- `REG.WR CFG_MAXRETRY` (R239). -/
def execRegWrCfgMaxRetry (v : Word) (s : State) : Host.Outcome State Fault Refusal :=
  .next ((s.regWrite .cfgMaxRetry v).answer (.written true))

/-- `REG.WR CFG_AMBIG` (R239). -/
def execRegWrCfgAmbig (v : Word) (s : State) : Host.Outcome State Fault Refusal :=
  .next ((s.regWrite .cfgAmbig v).answer (.written true))

/-- `BUS.ERROR` (20_memory.md R79): every access that no other row stands for. -/
def execBusError (a : Access) (s : State) : Host.Outcome State Fault Refusal :=
  .next (match a.op with
    | .rd => s.busErrorRead
    | .wr _ => s.busErrorWrite)

end Sys2Proof.Machine
end

