-- ==== Sys2Proof/Machine/Tick.lean ====
section
/-! DEFINITION. `TICK d a` (20_memory.md R80): five phases in fixed order, each seeing the writes of the earlier ones. -/

namespace Sys2Proof.Machine

/-- Phases P1 to P4 of a tick with `data_in = d`, `ack_in = a`. -/
def State.tickPhases (d a : Bool) (s : State) : State :=
  (((s.quiet.phaseCapture d).phaseAck a).phaseClose).phaseTx

/-- `TICK d a` (R80); refused where the no-overflow premise fails (70_reset_and_hazards.md R304; log 6). -/
def execTick (d a : Bool) (s : State) : Host.Outcome State Fault Refusal :=
  if s.timeOk then .next { s.tickPhases d a with now := s.now + 1 } else .refused .timeOverflow

end Sys2Proof.Machine
end

