-- ==== Sys2Proof/Machine/Dispatch.lean ====
section
/-! DEFINITION. The dispatch of every operation to its meaning. -/

namespace Sys2Proof.Machine

def exec (i : Instr) (s : State) : Host.Outcome State Fault Refusal :=
  match i with
  | .nop => Sys2Proof.Machine.execNop s
  | .send => Sys2Proof.Machine.execSend s
  | .rxEnable => Sys2Proof.Machine.execRxEnable s
  | .rxDisable => Sys2Proof.Machine.execRxDisable s
  | .softReset => Sys2Proof.Machine.execSoftReset s
  | .cmdReserved v => Sys2Proof.Machine.execCmdReserved v s
  | .wireFlag => Sys2Proof.Machine.execWireFlag s
  | .wireEsc x => Sys2Proof.Machine.execWireEsc x s
  | .wireLit b => Sys2Proof.Machine.execWireLit b s
  | .hdr q => Sys2Proof.Machine.execHdr q s
  | .frame p => Sys2Proof.Machine.execFrame p s
  | .ackCapture => Sys2Proof.Machine.execAckCapture s
  | .tick d a => Sys2Proof.Machine.execTick d a s
  | .reset => Sys2Proof.Machine.execReset s
  | .regRd off => Sys2Proof.Machine.execRegRd off s
  | .regWr off v => Sys2Proof.Machine.execRegWr off v s
  | .bufRd sp a => Sys2Proof.Machine.execBufRd sp a s
  | .bufWr a b => Sys2Proof.Machine.execBufWr a b s
  | .regWrFlags v => Sys2Proof.Machine.execRegWrFlags v s
  | .regWrIrqEn v => Sys2Proof.Machine.execRegWrIrqEn v s
  | .regWrTxLen v => Sys2Proof.Machine.execRegWrTxLen v s
  | .regWrPeerId v => Sys2Proof.Machine.execRegWrPeerId v s
  | .regWrCfgMode v => Sys2Proof.Machine.execRegWrCfgMode v s
  | .regWrCfgTslot v => Sys2Proof.Machine.execRegWrCfgTslot v s
  | .regWrCfgTidle v => Sys2Proof.Machine.execRegWrCfgTidle v s
  | .regWrCfgTack v => Sys2Proof.Machine.execRegWrCfgTack v s
  | .regWrCfgMaxRetry v => Sys2Proof.Machine.execRegWrCfgMaxRetry v s
  | .regWrCfgAmbig v => Sys2Proof.Machine.execRegWrCfgAmbig v s
  | .busError acc => Sys2Proof.Machine.execBusError acc s
  | .txHoldIdle => Sys2Proof.Machine.execTxHoldIdle s
  | .txHoldFailed => Sys2Proof.Machine.execTxHoldFailed s
  | .txWaitSlot => Sys2Proof.Machine.execTxWaitSlot s
  | .txEmit => Sys2Proof.Machine.execTxEmit s
  | .txEmitLast => Sys2Proof.Machine.execTxEmitLast s
  | .txAcked => Sys2Proof.Machine.execTxAcked s
  | .txWait => Sys2Proof.Machine.execTxWait s
  | .txRetx => Sys2Proof.Machine.execTxRetx s
  | .txFail => Sys2Proof.Machine.execTxFail s
  | .rxIgnore => Sys2Proof.Machine.execRxIgnore s
  | .rxStart => Sys2Proof.Machine.execRxStart s
  | .rxCapture => Sys2Proof.Machine.execRxCapture s
  | .rxWaitStart => Sys2Proof.Machine.execRxWaitStart s
  | .rxWaitCapture => Sys2Proof.Machine.execRxWaitCapture s
  | .rxWaitQuiet => Sys2Proof.Machine.execRxWaitQuiet s
  | .rxClose => Sys2Proof.Machine.execRxClose s
  | .rxDropErr e => Sys2Proof.Machine.execRxDropErr e s
  | .rxDropHdr => Sys2Proof.Machine.execRxDropHdr s
  | .rxDup q => Sys2Proof.Machine.execRxDup q s
  | .rxBusy q => Sys2Proof.Machine.execRxBusy q s
  | .rxDeliver q m => Sys2Proof.Machine.execRxDeliver q m s
  | .btEncode bits t0 T => Sys2Proof.Machine.execBtEncode bits t0 T s
  | .btSlot d T => Sys2Proof.Machine.execBtSlot d T s
  | .btDecodeFixed ts tref T W M => Sys2Proof.Machine.execBtDecodeFixed ts tref T W M s
  | .btDecodeReanchor ts tref T W M => Sys2Proof.Machine.execBtDecodeReanchor ts tref T W M s
  | .assemble ks W => Sys2Proof.Machine.execAssemble ks W s
  | .crc32 p => Sys2Proof.Machine.execCrc32 p s
  | .crc32le p => Sys2Proof.Machine.execCrc32le p s
  | .frEscape body => Sys2Proof.Machine.execFrEscape body s
  | .frEncode p => Sys2Proof.Machine.execFrEncode p s
  | .frUnescape raw => Sys2Proof.Machine.execFrUnescape raw s
  | .frDecode bits bodyMax => Sys2Proof.Machine.execFrDecode bits bodyMax s

end Sys2Proof.Machine
end

