-- ==== Sys2Proof/Machine/Step.lean ====
section
/-! DEFINITION. One step: take the next operation of the run and perform it (20_memory.md R81). -/

namespace Sys2Proof.Machine

/-- One step of a run. -/
def step (s : State) : Host.Outcome State Fault Refusal := exec s.fetch.1 s.fetch.2

/-- The state with an instruction, its bits numbered as the operation table numbers them, placed as the next operation
of the script. It stands for the host or the channel supplying that operation (log 1). -/
def State.withFetchWord (s : State) (nbits w : Nat) : State := s.place nbits w

end Sys2Proof.Machine
end

