-- ==== Sys2Proof/Safety.lean ====
section
/-! DEFINITION. What claims about the machine are stated in: the invariants of 10_state.md R53, the operations that a
run of the hardware holds (20_memory.md R81), the parts of the state that belong to each role (20_memory.md R80), runs of
ticks, and pulse trains on the wire. -/

namespace Sys2Proof.Machine

/-- The sender is active: a frame is in flight. -/
def State.txActive (s : State) : Prop := s.txState = .sending ∨ s.txState = .waitingAck

/-- The receiver is armed or a window is open. -/
def State.rxActive (s : State) : Prop := s.rxEn = true ∨ s.rxState = .receiving

/-- A flat address lies in `TXBUF` or `RXBUF` of the instance (20_memory.md R70, R71). -/
def Build.inBuffers (b : Build) (a : Nat) : Prop :=
  (0x400 ≤ a ∧ a < 0x400 + b.maxPayload) ∨ (0x800 ≤ a ∧ a < 0x800 + b.maxPayload)

/-- The invariants of R53 (a) to (h), with the widths and capacities of 10_state.md. (a) is the type of `txState`. Of (g)
the first half only: in FAILED the host may rewrite `CFG_MAXRETRY`, so the second half does not hold of every reachable
state (log 19). -/
structure State.Inv (s : State) : Prop where
  /-- R6: the build-time parameters meet their constraints. -/
  build_ok : Build.wf s.build
  /-- R23, R48: every stored time fits in `TS_W` bits. -/
  times_fit : s.now < 2 ^ s.build.tsW ∧ s.txT0 < 2 ^ s.build.tsW ∧ s.txDeadline < 2 ^ s.build.tsW
  /-- R53 (b): the size of the frame in flight. -/
  frame_size : s.txActive → 56 ≤ s.txNbits ∧ s.txNbits ≤ s.build.frameMaxBits
  /-- R53 (b): the index of the next bit. -/
  index_in_frame : s.txState = .sending → s.txIdx < s.txNbits
  /-- 42_arq_sender.md R190: the next bit is never scheduled in the past. -/
  schedule_ahead : s.txState = .sending → s.now ≤ s.txT0 + s.txIdx * s.tslot
  /-- R53 (c). -/
  active_config : s.txActive → s.cfgOk = true ∧ s.peerValid = true
  /-- R53 (d), and the same while armed (R36). -/
  armed_config : s.rxActive → s.cfgOk = true ∧ s.peerValid = true
  /-- R53 (d): the open window. -/
  window_open : s.rxState = .receiving → s.rxTs.head? = some s.rxTfirst ∧ s.rxTfirst ≤ s.rxTlast ∧ s.rxTlast ≤ s.now
  /-- R49: no entry lies in the future. -/
  entries_past : ∀ t ∈ s.rxTs, t ≤ s.now
  /-- R49: the capacity of `RX_TS`. -/
  entries_fit : s.rxTs.length ≤ s.build.rxTsDepth
  /-- R53 (e). -/
  window_closed : s.rxState = .idle → s.rxTs = []
  /-- R53 (f). -/
  ack_waiting : s.ackSeen = true → s.txState = .waitingAck
  /-- R53 (g), first half. -/
  retry_bound : s.txActive → s.txRetry.toNat ≤ s.cfgMaxRetry.toNat
  /-- R53 (h). -/
  length_bound : s.rxLen.toNat ≤ s.build.maxPayload
  /-- The memory is in its canonical form. -/
  mem_canonical : Memory.wf s.mem = true
  /-- R70: only bytes of the two buffers exist. -/
  mem_in_buffers : ∀ c ∈ s.mem, Build.inBuffers s.build c.1

/-- The operations of a run (R81): `RESET`, `TICK`, the bus accesses, a command being a write to `CMD`; and the rows that
write no state. The other rows are parts of a tick. -/
def isRunOperation : Instr → Bool
  | .nop | .send | .rxEnable | .rxDisable | .softReset | .cmdReserved _ => true
  | .wireFlag | .wireEsc _ | .wireLit _ | .hdr _ | .frame _ => true
  | .tick _ _ | .reset => true
  | .regRd _ | .regWr _ _ | .bufRd _ _ | .bufWr _ _ | .busError _ => true
  | .regWrFlags _ | .regWrIrqEn _ | .regWrTxLen _ | .regWrPeerId _ => true
  | .regWrCfgMode _ | .regWrCfgTslot _ | .regWrCfgTidle _ | .regWrCfgTack _ | .regWrCfgMaxRetry _
  | .regWrCfgAmbig _ => true
  | .btEncode _ _ _ | .btSlot _ _ | .btDecodeFixed _ _ _ _ _ | .btDecodeReanchor _ _ _ _ _ | .assemble _ _ => true
  | .crc32 _ | .crc32le _ | .frEscape _ | .frEncode _ | .frUnescape _ | .frDecode _ _ => true
  | .ackCapture => false
  | .txHoldIdle | .txHoldFailed | .txWaitSlot | .txEmit | .txEmitLast | .txAcked | .txWait | .txRetx | .txFail => false
  | .rxIgnore | .rxStart | .rxCapture | .rxWaitStart | .rxWaitCapture | .rxWaitQuiet | .rxClose => false
  | .rxDropErr _ | .rxDropHdr | .rxDup _ | .rxBusy _ | .rxDeliver _ _ => false

/-- Every operation still to come is one of a run (R81). -/
def State.runScript (s : State) : Prop := ∀ r ∈ s.script, isRunOperation (decode r) = true

/-- Between the operations of a run the entries of `RX_TS` rise strictly and lie, with `RX_TLAST`, before `NOW` (R49). -/
def State.stampsRise (s : State) : Prop :=
  s.rxState = .receiving → s.rxTs.Pairwise (· < ·) ∧ (∀ t ∈ s.rxTs, t ≤ s.rxTlast) ∧ s.rxTlast < s.now

/-- Two states agree on all that phases P1 and P3 read and write (20_memory.md R80). -/
structure sameReceiver (s t : State) : Prop where
  build : s.build = t.build
  now : s.now = t.now
  config : s.reanchor = t.reanchor ∧ s.cfgTslot = t.cfgTslot ∧ s.cfgTidle = t.cfgTidle ∧ s.cfgAmbig = t.cfgAmbig
  roleState : s.rxEn = t.rxEn ∧ s.rxState = t.rxState ∧ s.rxTs = t.rxTs ∧ s.rxTfirst = t.rxTfirst ∧ s.rxTlast = t.rxTlast
  session : s.rxSession = t.rxSession ∧ s.rxLastSeq = t.rxLastSeq
  results : s.rxResult = t.rxResult ∧ s.rxAmbig = t.rxAmbig ∧ s.rxLen = t.rxLen
  flags : ∀ f ∈ [Flag.rxMsg, .rxDup, .rxErr, .rxOvf, .ambig], s.hasFlag f = t.hasFlag f
  buffer : ∀ a, s.mem.read (rxbufAddr a) = t.mem.read (rxbufAddr a)

/-- Two states agree on all that phases P2 and P4 read and write (20_memory.md R80). -/
structure sameSender (s t : State) : Prop where
  now : s.now = t.now
  config : s.cfgTslot = t.cfgTslot ∧ s.cfgTack = t.cfgTack ∧ s.cfgMaxRetry = t.cfgMaxRetry
  roleState : s.txState = t.txState ∧ s.txIdx = t.txIdx ∧ s.txSeq = t.txSeq ∧ s.ackSeen = t.ackSeen ∧ s.txFrame = t.txFrame
  times : s.txT0 = t.txT0 ∧ s.txDeadline = t.txDeadline
  results : s.txRetry = t.txRetry ∧ s.txLastRetries = t.txLastRetries ∧ s.txResult = t.txResult
  flags : ∀ f ∈ [Flag.txDone, .txFail], s.hasFlag f = t.hasFlag f

/-- The ticks with the strobes listed, in order; `none` where one of them is refused. -/
def runTicks : List (Bool × Bool) → State → Option State
  | [], s => some s
  | (d, a) :: rest, s =>
    match exec (.tick d a) s with
    | .next t => runTicks rest t
    | .fault _ => none
    | .refused _ => none

/-- The no-overflow premise with room for `n` more ticks (70_reset_and_hazards.md R304: "throughout the run"). -/
def State.timeOkFor (n : Nat) (s : State) : Prop :=
  s.now + n + s.tack + s.tidle + s.build.frameMaxBits * s.tslot + 2 < 2 ^ s.build.tsW

/-- The indices of the 1 bits of a sequence, rising. -/
def oneIndices (bits : List Bool) : List Nat := (List.range bits.length).filter (fun j => bits[j]?.getD false)

/-- The times at which the scheduled actions of a bit sequence emit a pulse (40_bit_timing.md R131). -/
def pulseTimes (bits : List Bool) (t0 T : Nat) : List Nat :=
  (btEncode bits t0 T).filterMap (fun a => if a.2 then some a.1 else none)

/-- `p` is the index of the last 1 bit. -/
def isLastOne (bits : List Bool) (p : Nat) : Prop := bits[p]? = some true ∧ ∀ j, p < j → bits[j]? ≠ some true

/-- Each stamp lies in the slot of its 1 bit: with reference `tref`, within `(-T/2, +T/2]` of the slot's nominal instant
(40_bit_timing.md R132, 70_reset_and_hazards.md R305). -/
def stampedInSlots (tref : Int) (T : Nat) (bits : List Bool) (ts : List Nat) : Prop :=
  List.Forall₂ (fun (k t : Nat) => -(T : Int) < 2 * ((t : Int) - tref - k * T) ∧ 2 * ((t : Int) - tref - k * T) ≤ T)
    (oneIndices bits) ts

/-- The same with re-anchoring: the first stamp lies in its slot, and each gap between stamps is within `(-T/2, +T/2]` of
its nominal length (40_bit_timing.md R140 (c), 70_reset_and_hazards.md R305). -/
def gapsInSlots (tref : Int) (T : Nat) (bits : List Bool) (ts : List Nat) : Prop :=
  ts.length = (oneIndices bits).length ∧
  (∀ k t : Nat, (oneIndices bits)[0]? = some k → ts[0]? = some t →
    -(T : Int) < 2 * ((t : Int) - tref - k * T) ∧ 2 * ((t : Int) - tref - k * T) ≤ T) ∧
  (∀ i k k' t t' : Nat, (oneIndices bits)[i]? = some k → (oneIndices bits)[i + 1]? = some k' → ts[i]? = some t →
    ts[i + 1]? = some t' →
    -(T : Int) < 2 * ((t' : Int) - t - ((k' : Int) - k) * T) ∧ 2 * ((t' : Int) - t - ((k' : Int) - k) * T) ≤ T)

/-- The least offset at which the eight bits of FLAG stand (41_frame_codec.md R156, step 1). -/
def opensAt (bits : List Bool) (o : Nat) : Prop :=
  flagBits <+: bits.drop o ∧ ∀ j, j < o → ¬ flagBits <+: bits.drop j

/-- The value an operation writes to `CMD`, where it is such a write (30_encoding.md R108, 44_host_interface.md R232). -/
def commandOf : Instr → Option Word
  | .nop => some 0
  | .send => some 1
  | .rxEnable => some 2
  | .rxDisable => some 3
  | .softReset => some 4
  | .cmdReserved v => some v
  | .regWr off v => if off = 0 then some v else none
  | _ => none

/-- The state after a rejected command or locked write: `CMD_ERR`, the code, `ok = 1`, and no strobe
(44_host_interface.md R240). -/
def State.afterReject (code : ErrCode) (s : State) : State :=
  { s with flags := s.flags ||| 0x40#8, errCode := code, dataOut := false, ackOut := false, response := .written true }

/-- Two states agree on the locked registers and `PEER_VALID` (10_state.md R36). -/
structure sameConfig (s t : State) : Prop where
  tslot : s.cfgTslot = t.cfgTslot
  tidle : s.cfgTidle = t.cfgTidle
  tack : s.cfgTack = t.cfgTack
  maxRetry : s.cfgMaxRetry = t.cfgMaxRetry
  ambig : s.cfgAmbig = t.cfgAmbig
  reanchor : s.reanchor = t.reanchor
  peer : s.peerId = t.peerId ∧ s.peerValid = t.peerValid

/-- Every part of the record bears on what it decodes to: a format without ignored bits; an access of one byte that carries
one byte; a next byte exactly with an ESC, and that no FLAG; a Raw Frame whose payload fits the largest instance
(30_encoding.md R101, R102, R107, R110, R111, R115). -/
def usedWhole : Record → Prop
  | .cmd _ | .tick _ _ | .reset | .ackStrobe | .func _ => True
  | .bus a => ∀ v, a.op = .wr v → a.width = 1 → v.toNat < 2 ^ 8
  | .wire b after => if b = escByte then ∃ x, after = some x ∧ x ≠ flagByte else after = none
  | .frame bytes => ∃ p : List Byte, p.length ≤ payloadLimit + 1 ∧ frEncode p = bytes
  | .hdr _ | .txv _ | .rxvP1 _ _ _ | .rxvP3 _ | .rxo _ _ _ => False

/-- The accesses that the block answers with `ok = 1` (20_memory.md R74, R79): a register whole at a listed offset,
written only where it is not read-only; a byte of a buffer, `RXBUF` read only. -/
def State.allows (s : State) (a : Access) : Prop :=
  match a.space, a.op with
  | .reg, .rd => a.width = 4 ∧ a.addr % 4 = 0 ∧ a.addr ≤ 0x48
  | .reg, .wr _ => a.width = 4 ∧ a.addr % 4 = 0 ∧ a.addr ≤ 0x48 ∧
      a.addr ∉ [0x0C, 0x28, 0x34, 0x38, 0x3C, 0x40, 0x44, 0x48]
  | .txbuf, _ => a.width = 1 ∧ a.addr < s.build.maxPayload
  | .rxbuf, .rd => a.width = 1 ∧ a.addr < s.build.maxPayload
  | .rxbuf, .wr _ => False

/-- A row of a dispatch table matches a vector: the bits under the mask are the pattern's. -/
def rowMatches {w : Nat} (mask pattern v : BitVec w) : Prop := v &&& mask = pattern

/-- The rows of 30_encoding.md R112, as mask, pattern and operation. -/
def txvRows : List (BitVec 8 × BitVec 8 × TxOp) :=
  [(0b11100000, 0b00000000, .holdIdle),
   (0b11100000, 0b01100000, .holdFailed),
   (0b11110000, 0b00100000, .waitSlot),
   (0b11111000, 0b00110000, .emit),
   (0b11111000, 0b00111000, .emitLast),
   (0b11100100, 0b01000100, .acked),
   (0b11100110, 0b01000000, .wait),
   (0b11100111, 0b01000010, .retx),
   (0b11100111, 0b01000011, .fail)]

/-- The rows of 30_encoding.md R113, as mask, pattern, operation of P1 and operation of P3. -/
def rxvRows : List (BitVec 4 × BitVec 4 × Option RxOp1 × Option RxOp3) :=
  [(0b1010, 0b0000, none, none),
   (0b1110, 0b0010, some .ignore, none),
   (0b1110, 0b0110, some .start, some .waitStart),
   (0b1010, 0b1010, some .capture, some .waitCapture),
   (0b1011, 0b1000, none, some .waitQuiet),
   (0b1011, 0b1001, none, some .close)]

/-- The outcomes of `RX.CLOSE` (30_encoding.md R114). -/
inductive RxOutcome where
  | dropErr | dropHdr | dup | busy | deliver
  deriving DecidableEq, Repr

/-- The rows of 30_encoding.md R114, as mask, pattern, outcome, whether it acknowledges and whether it delivers. -/
def rxoRows : List (BitVec 4 × BitVec 4 × RxOutcome × Bool × Bool) :=
  [(0b1000, 0b0000, .dropErr, false, false),
   (0b1100, 0b1000, .dropHdr, false, false),
   (0b1110, 0b1110, .dup, true, false),
   (0b1111, 0b1101, .busy, false, false),
   (0b1111, 0b1100, .deliver, true, true)]

end Sys2Proof.Machine
end

