-- ==== Sys2Proof/Certificates/Slice0/Obligations.lean ====
section
/-! DEFINITION. The statements for the provers. A docstring names the rules of spec/ a statement rests on, and the log
entry of notes/assumptions/ where a clause is the model's own. -/

section Slice0Statements

open Sys2Proof Sys2Proof.Machine

/-- O1 (R100, R101, R105, R108, R111, R112, R113, R114). For every well-formed operation i, of every format, decode
(encode i) = i, with every operand at every value that well-formedness admits. For the format FRAME this runs the
frame codec with its CRC. What a record holds is the model's (log 2). -/
def Obligations.DecodeEncodeAgree : Prop :=
  ∀ i : Instr, i.wf = true → decode (encode i) = i

/-- O2 (R101, R102, R107, R110, R111, R115). For every record r of format CMD, EVT or FUNC, every access of format BUS
whose value fits in one byte where it is one byte wide, every byte of format WIRE given with a next byte, not a
FLAG, exactly where it is an ESC, and every Raw Frame of a payload that fits the largest instance: encode (decode r)
= r, so no part of r is dropped. What a record holds is the model's (log 2). -/
def Obligations.WordsHaveOneMeaning : Prop :=
  ∀ r : Record, usedWhole r → encode (decode r) = r

/-- O3 (R101, R102, R103, R105, R108, R109, R110, R111, R112, R113, R114, R115). One record of each format, written out
from the format's rule, decodes to the operation it stands for; every CMD value decodes by R108 and R109; an access
of the wrong width is BUS.ERROR whatever value it carries. What a record holds is the model's (log 2). -/
def Obligations.SpecWordsDecode : Prop :=
  (∀ v : Word, decode (.cmd v) = if v = 0 then .nop else if v = 1 then .send else if v = 2 then .rxEnable
      else if v = 3 then .rxDisable else if v = 4 then .softReset else .cmdReserved v) ∧
  decode (.frame [0x7E, 0x61, 0x43, 0xBE, 0xB7, 0xE8, 0x7E]) = .frame [0x61] ∧
  decode (.wire 0b01111110 none) = .wireFlag ∧
  decode (.wire 0b01111101 (some 0b01011110)) = .wireEsc 0x5E#8 ∧
  decode (.wire 0b01100001 none) = .wireLit 0x61#8 ∧
  decode (.hdr 0b00000001) = .hdr true ∧
  decode (.tick true false) = .tick true false ∧
  decode (.bus ⟨.rd, .reg, 0x18, 4⟩) = .regRd 0x18 ∧
  decode (.bus ⟨.wr 20, .reg, 0x14, 4⟩) = .regWrCfgTslot 20#32 ∧
  decode (.bus ⟨.wr 0x48, .txbuf, 3, 1⟩) = .bufWr 3 0x48#8 ∧
  (∀ (v : Word) (width : Nat), width ≠ 4 →
    decode (.bus ⟨.wr v, .reg, 0x00, width⟩) = .busError ⟨.wr v, .reg, 0x00, width⟩) ∧
  decode (.txv 0b1000011) = .txFail ∧
  decode (.rxvP3 (.wasOpen true false true)) = .rxClose ∧
  decode (.rxo (.ok [0x01, 0x61]) false true) = .rxBusy true ∧
  decode (.func (.btSlot 65 10)) = .btSlot 65 10

/-- O4 (R51, R81). Where the script has a next record r, step is exec of what r decodes to, at the state whose script is
the rest and which is otherwise the same. Where the script is empty, step is exec of TICK 0 0. That a run is held in
the script is the model's choice (log 1). -/
def Obligations.StepRunsDecodedOperation : Prop :=
  ∀ s : State,
    (s.script = [] → step s = exec (.tick false false) s) ∧
    (∀ r rest, s.script = r :: rest → step s = exec (decode r) { s with script := rest })

/-- O5 (R112). For every state that meets the no-overflow premise: the vector sssdlktx is made of TX_STATE, due, last,
acked, timed out and exhausted as the rule gives them; exactly one of the nine rows matches it; and exec of that
row's operation answers the next state in which phase P4 was performed with the strobes cleared before it. -/
def Obligations.TxDispatchTable : Prop :=
  ∀ s : State, s.timeOk = true →
    s.txVector = s.txState.code ++ BitVec.ofBool (decide (s.now = s.txT0 + s.txIdx * s.cfgTslot.toNat))
      ++ BitVec.ofBool (decide (s.txIdx + 1 = 8 * s.txFrame.length)) ++ BitVec.ofBool s.ackSeen
      ++ BitVec.ofBool (decide (s.txDeadline ≤ s.now))
      ++ BitVec.ofBool (decide (s.cfgMaxRetry.toNat ≤ s.txRetry.toNat)) ∧
    ∃ row ∈ txvRows, rowMatches row.1 row.2.1 s.txVector ∧
      (∀ other ∈ txvRows, rowMatches other.1 other.2.1 s.txVector → other = row) ∧
      exec row.2.2.toInstr s = .next s.quiet.phaseTx

/-- O6 (R113). For every state and value d of data_in: the vector redi is made of RX_STATE, RX_EN, d and idle expired as
the rule gives them; exactly one of the six rows matches it; phase P1 does nothing where the row names no P1
operation and else is exec of that operation; phase P3, on the state after P1, does nothing where the row names no
P3 operation and else is exec of that operation. -/
def Obligations.RxDispatchTable : Prop :=
  ∀ (s : State) (d : Bool),
    s.rxVector d = s.rxState.code ++ BitVec.ofBool s.rxEn ++ BitVec.ofBool d
      ++ BitVec.ofBool (decide ((s.cfgTidle.toNat : Int) < (s.now : Int) - (s.rxTlast : Int))) ∧
    ∃ row ∈ rxvRows, rowMatches row.1 row.2.1 (s.rxVector d) ∧
      (∀ other ∈ rxvRows, rowMatches other.1 other.2.1 (s.rxVector d) → other = row) ∧
      (match row.2.2.1 with
        | none => s.phaseCapture d = s
        | some op => exec op.toInstr s = .next (s.quiet.phaseCapture d)) ∧
      (match row.2.2.2 with
        | none => (s.phaseCapture d).phaseClose = s.phaseCapture d
        | some op => exec op.toInstr (s.phaseCapture d) = .next (s.phaseCapture d).quiet.phaseClose)

/-- O7 (R114). For every state and verdict whose payload fits the instance: f, h, q, b of the vector are as the rule
gives them; exactly one of the five rows matches; the outcome taken by the decode attempt is exec of that row's
operation; it drives ack_out exactly where the row acknowledges, and writes RXBUF, RX_LEN, RX_SESSION or RX_LASTSEQ
only where the row delivers. -/
def Obligations.OutcomeTable : Prop :=
  ∀ (s : State) (v : Verdict), (∀ p, v = .ok p → p.length ≤ s.build.frPayloadMax) →
    (∀ h m, v = .ok (h :: m) → s.rxoVector v = 0b11#2
      ++ BitVec.ofBool (s.rxSession && s.rxLastSeq == h.getLsbD 0) ++ BitVec.ofBool (s.flags.getLsbD 2)) ∧
    ∃ row ∈ rxoRows, rowMatches row.1 row.2.1 (s.rxoVector v) ∧
      (∀ other ∈ rxoRows, rowMatches other.1 other.2.1 (s.rxoVector v) → other = row) ∧
      (match row.2.2.1, v with
        | .dropErr, .err e => exec (.rxDropErr e) s = .next (s.quiet.doOutcome v)
        | .dropHdr, .ok [] => exec .rxDropHdr s = .next (s.quiet.doOutcome v)
        | .dup, .ok (h :: _) => exec (.rxDup (h.getLsbD 0)) s = .next (s.quiet.doOutcome v)
        | .busy, .ok (h :: _) => exec (.rxBusy (h.getLsbD 0)) s = .next (s.quiet.doOutcome v)
        | .deliver, .ok (h :: m) => exec (.rxDeliver (h.getLsbD 0) m) s = .next (s.quiet.doOutcome v)
        | _, _ => False) ∧
      (s.quiet.doOutcome v).ackOut = row.2.2.2.1 ∧
      (row.2.2.2.2 = false → (s.quiet.doOutcome v).mem = s.mem ∧ (s.quiet.doOutcome v).rxLen = s.rxLen ∧
        (s.quiet.doOutcome v).rxSession = s.rxSession ∧ (s.quiet.doOutcome v).rxLastSeq = s.rxLastSeq)

/-- O8 (R133). For every integer d and every T >= 1, btSlot d T = floor((2d + T - 1) / (2T)), and btSlot d T = k exactly
where -T < 2(d - kT) <= T: the nearest multiple, ties toward the earlier slot. The residual is d - kT. -/
def Obligations.SlotIsNearest : Prop :=
  ∀ (d : Int) (T : Nat), 1 ≤ T →
    btSlot d T = (2 * d + T - 1) / (2 * T) ∧
    (∀ k : Int, btSlot d T = k ↔ -(T : Int) < 2 * (d - k * T) ∧ 2 * (d - k * T) ≤ T) ∧
    btResidual d T = d - btSlot d T * T

/-- O9 (R131). For every bit sequence, start and T: there are as many actions as bits, and where bit i is b, action i is
the pair (t0 + i*T, b), b saying whether it emits a DATA-PULSE. -/
def Obligations.ScheduleOfBits : Prop :=
  ∀ (bits : List Bool) (t0 T : Nat),
    (btEncode bits t0 T).length = bits.length ∧
    ∀ (i : Nat) (b : Bool), bits[i]? = some b → (btEncode bits t0 T)[i]? = some (t0 + i * T, b)

/-- O10 (R134, R135). For strictly rising timestamps and T >= 1. Fixed grid: the bits and overflow mark are ASSEMBLE of
max(0, BT.SLOT(ts[i] - t_ref, T)), and namb counts the i with T - 2*abs(r_i) <= 2*M. Re-anchoring: there are slots
ks and residuals rs, one for each pulse, the first placed by the grid, each later slot the one before plus BT.SLOT
of the gap to the pulse before it, which is not negative; the bits and overflow mark are ASSEMBLE of ks and namb
counts the residuals inside the margin. -/
def Obligations.SlotPlacement : Prop :=
  ∀ (ts : List Nat) (tref : Int) (T W M : Nat), strictlyRising ts = true → 1 ≤ T →
    (((btDecodeFixed ts tref T W M).bits, (btDecodeFixed ts tref T W M).ovf)
        = assemble (ts.map fun t : Nat => (max 0 (btSlot ((t : Int) - tref) T)).toNat) W ∧
      (btDecodeFixed ts tref T W M).namb
        = (ts.filter fun t : Nat =>
            decide ((T : Int) - 2 * |(t : Int) - tref - btSlot ((t : Int) - tref) T * T| ≤ 2 * M)).length) ∧
    ∃ (ks : List Nat) (rs : List Int), ks.length = ts.length ∧ rs.length = ts.length ∧
      (∀ t : Nat, ts[0]? = some t → ks[0]? = some (max 0 (btSlot ((t : Int) - tref) T)).toNat ∧
        rs[0]? = some ((t : Int) - tref - btSlot ((t : Int) - tref) T * T)) ∧
      (∀ i t t' k : Nat, ts[i]? = some t → ts[i + 1]? = some t' → ks[i]? = some k →
        0 ≤ btSlot ((t' : Int) - t) T ∧ ks[i + 1]? = some (k + (btSlot ((t' : Int) - t) T).toNat) ∧
        rs[i + 1]? = some ((t' : Int) - t - btSlot ((t' : Int) - t) T * T)) ∧
      ((btDecodeReanchor ts tref T W M).bits, (btDecodeReanchor ts tref T W M).ovf) = assemble ks W ∧
      (btDecodeReanchor ts tref T W M).namb = (rs.filter fun r => decide ((T : Int) - 2 * |r| ≤ 2 * M)).length

/-- O11 (R137). For every list of slots and W: the overflow mark is 1 exactly where some slot lies beyond W - 2; the
bitstream is empty where every slot does; else, with m the largest kept slot, it has m + 2 bits, bit j being 1
exactly where j is a kept slot; and it never has more than W bits. -/
def Obligations.AssembleBits : Prop :=
  ∀ (ks : List Nat) (W : Nat),
    ((assemble ks W).2 = true ↔ ∃ k ∈ ks, W < k + 2) ∧
    ((∀ k ∈ ks, W < k + 2) → (assemble ks W).1 = []) ∧
    (∀ m ∈ ks, m + 2 ≤ W → (∀ k ∈ ks, k + 2 ≤ W → k ≤ m) →
      (assemble ks W).1.length = m + 2 ∧
      ∀ j, j < m + 2 → (assemble ks W).1[j]? = some (decide (j ∈ ks ∧ j + 2 ≤ W))) ∧
    (assemble ks W).1.length ≤ W

/-- O12 (R131, R134, R135, R137, R142). For every bit sequence whose last 1 is at index p, T >= 1, W >= p + 2 and 2M <
T: decoding its pulse times with t_ref = t0, or, where it begins 01, with t_ref = the first pulse minus T, gives
b[0..p] ++ [0], namb = 0, ovf = 0, with the fixed grid and with re-anchoring. For the bits of a Raw Frame that fits
in W the result is the bits themselves. The whole is an inference: R142 is the spec's own from R131, R134 and R137
and speaks of the fixed grid; the half on re-anchoring is drawn from R135. -/
def Obligations.EncodeDecodeInverse : Prop :=
  (∀ (bits : List Bool) (p t0 T W M : Nat) (tref : Int) (re : Bool),
    isLastOne bits p → 1 ≤ T → p + 2 ≤ W → 2 * M < T →
    (tref = t0 ∨ ((∃ rest, bits = false :: true :: rest) ∧
      ∃ f, (pulseTimes bits t0 T).head? = some f ∧ tref = (f : Int) - T)) →
    btDecode re (pulseTimes bits t0 T) tref T W M
      = { bits := bits.take (p + 1) ++ [false], namb := 0, ovf := false }) ∧
  (∀ (payload : List Byte) (t0 T W M : Nat) (re : Bool), 1 ≤ T → 2 * M < T →
    (bitsOf (frEncode payload)).length ≤ W →
    btDecode re (pulseTimes (bitsOf (frEncode payload)) t0 T) t0 T W M
      = { bits := bitsOf (frEncode payload), namb := 0, ovf := false })

/-- O13 (R132, R138, R140, R305). For every bit sequence whose last 1 is at index p, T >= 1 and W >= p + 2. Fixed grid:
where each stamp lies within (-T/2, +T/2] of the nominal instant of its 1 bit, relative to t_ref, the recovered bits
are b[0..p] ++ [0] with no overflow. Re-anchoring: the same where the first stamp does and each gap between stamps
lies within (-T/2, +T/2] of its nominal length. -/
def Obligations.TimingRobustness : Prop :=
  ∀ (bits : List Bool) (ts : List Nat) (p T W M : Nat) (tref : Int),
    isLastOne bits p → 1 ≤ T → p + 2 ≤ W →
    (stampedInSlots tref T bits ts →
      (btDecodeFixed ts tref T W M).bits = bits.take (p + 1) ++ [false] ∧ (btDecodeFixed ts tref T W M).ovf = false) ∧
    (gapsInSlots tref T bits ts →
      (btDecodeReanchor ts tref T W M).bits = bits.take (p + 1) ++ [false] ∧
      (btDecodeReanchor ts tref T W M).ovf = false)

/-- O14 (R150, R151, R164). CRC32 of "123456789" is 0xCBF43926, of "Hello World" 0x4A17B156, of "a" 0xE8B7BE43, of [00]
0xD202EF8D, of [] 0; the trailer is least significant byte first; and the frame of 61 43 BE B7 E8 7F with the lowest
bit of the 7F flipped decodes to Ok(61). The CRC algorithm is from general knowledge (log 13). -/
def Obligations.CrcAndCorruptionExamples : Prop :=
  crc32 [0x31, 0x32, 0x33, 0x34, 0x35, 0x36, 0x37, 0x38, 0x39] = 0xCBF43926#32 ∧
  crc32 [0x48, 0x65, 0x6C, 0x6C, 0x6F, 0x20, 0x57, 0x6F, 0x72, 0x6C, 0x64] = 0x4A17B156#32 ∧
  crc32le [0x48, 0x65, 0x6C, 0x6C, 0x6F, 0x20, 0x57, 0x6F, 0x72, 0x6C, 0x64] = [0x56, 0xB1, 0x17, 0x4A] ∧
  crc32 [0x61] = 0xE8B7BE43#32 ∧ crc32 [0x00] = 0xD202EF8D#32 ∧ crc32 [] = 0#32 ∧ crc32le [] = [0, 0, 0, 0] ∧
  frEncode [0x61, 0x43, 0xBE, 0xB7, 0xE8, 0x7F]
    = [0x7E, 0x61, 0x43, 0xBE, 0xB7, 0xE8, 0x7F, 0xB0, 0x9B, 0x98, 0x06, 0x7E] ∧
  frDecode (bitsOf [0x7E, 0x61, 0x43, 0xBE, 0xB7, 0xE8, 0x7E, 0xB0, 0x9B, 0x98, 0x06, 0x7E]) 37 = .ok [0x61]

/-- O15 (R152, R155). For every byte sequence B: FR.ESCAPE(B) is byte by byte the pair [7D, b XOR 20] for b in {7E, 7D}
and [b] else, holds no 7E, has between len(B) and 2*len(B) bytes, and FR.UNESCAPE of it is Ok(B). FR.UNESCAPE
consumes 7D with the byte after it, whatever that is, answers EscapeError on a 7D that is last, and takes every
other byte as itself. That FR.UNESCAPE reverses FR.ESCAPE is the spec's own inference in R155 from R152; the rest is
what R152 and R155 state. -/
def Obligations.EscapingIsReversed : Prop :=
  (∀ B : List Byte,
    frEscape B = B.flatMap (fun b => if b = 0x7E#8 ∨ b = 0x7D#8 then [0x7D#8, b ^^^ 0x20#8] else [b]) ∧
    0x7E#8 ∉ frEscape B ∧ B.length ≤ (frEscape B).length ∧ (frEscape B).length ≤ 2 * B.length ∧
    frUnescape (frEscape B) = .ok B) ∧
  frUnescape [] = .ok [] ∧ frUnescape [0x7D#8] = .err .escapeError ∧
  (∀ (c : Byte) (rest body : List Byte), frUnescape rest = .ok body →
    frUnescape (0x7D#8 :: c :: rest) = .ok ((c ^^^ 0x20#8) :: body)) ∧
  (∀ (b : Byte) (rest body : List Byte), b ≠ 0x7D#8 → frUnescape rest = .ok body →
    frUnescape (b :: rest) = .ok (b :: body)) ∧
  (∀ (c : Byte) (rest : List Byte) (e : FrameError), frUnescape rest = .err e →
    frUnescape (0x7D#8 :: c :: rest) = .err e) ∧
  (∀ (b : Byte) (rest : List Byte) (e : FrameError), b ≠ 0x7D#8 → frUnescape rest = .err e →
    frUnescape (b :: rest) = .err e)

/-- O16 (R152, R153, R154). For every payload p: the length bounds; the frame is 7E, bytes none of which is 7E, 7E; as
bits it begins and ends with 01111110; and with len(p) <= FR_PAYLOAD_MAX of an instance it has at most
FRAME_MAX_BYTES bytes. R154 is as a whole the spec's own inference from R152 and R153. -/
def Obligations.EncodedFrameShape : Prop :=
  ∀ p : List Byte,
    p.length + 6 ≤ (frEncode p).length ∧ (frEncode p).length ≤ 2 * p.length + 10 ∧
    (∃ mid, frEncode p = 0x7E#8 :: (mid ++ [0x7E#8]) ∧ 0x7E#8 ∉ mid) ∧
    [false, true, true, true, true, true, true, false] <+: bitsOf (frEncode p) ∧
    [false, true, true, true, true, true, true, false] <:+ bitsOf (frEncode p) ∧
    ∀ b : Build, p.length ≤ b.frPayloadMax → (frEncode p).length ≤ b.frameMaxBytes

/-- O17 (R104). For every byte sequence: its serialisation has 8 bits for each byte, and bit 8*j + i is bit 7 - i of
byte j. For every bitstream: byte j of its whole bytes is the byte whose bit 7 - i is bit 8*j + i, for every j with
8*j + 8 bits present, and there are no other whole bytes. -/
def Obligations.BitSerialisation : Prop :=
  (∀ bytes : List Byte, (bitsOf bytes).length = 8 * bytes.length ∧
    ∀ (j i : Nat) (b : Byte), i < 8 → bytes[j]? = some b → (bitsOf bytes)[8 * j + i]? = some (b.getLsbD (7 - i))) ∧
  (∀ bits : List Bool, (bytesOf bits).length = bits.length / 8 ∧
    ∀ j, 8 * j + 8 ≤ bits.length → ∃ b : Byte, (bytesOf bits)[j]? = some b ∧
      ∀ i, i < 8 → bits[8 * j + i]? = some (b.getLsbD (7 - i)))

/-- O18 (R153, R156, R163). For every payload p, bits pre before it that open no FLAG at an earlier offset than the
frame's, and bits post after it: FR.DECODE(pre ++ bits(FR.ENCODE(p)) ++ post, BODY_MAX) is Ok(p) where len(p) + 4 <=
BODY_MAX (that is len(p) <= FR_PAYLOAD_MAX) and Err(Truncated) where it is not. The clauses on bits before and
after, and on Truncated, are the spec's own inference in R163 from R153 to R161. -/
def Obligations.FrameRoundTrip : Prop :=
  ∀ (p : List Byte) (pre post : List Bool) (bodyMax : Nat),
    (∀ j, j < pre.length → ¬ flagBits <+: (pre ++ bitsOf (frEncode p)).drop j) →
    (p.length + 4 ≤ bodyMax → frDecode (pre ++ bitsOf (frEncode p) ++ post) bodyMax = .ok p) ∧
    (bodyMax < p.length + 4 → frDecode (pre ++ bitsOf (frEncode p) ++ post) bodyMax = .err .truncated)

/-- O19 (R156, R157, R158, R159, R160, R161, R162). For every bitstream and bound: Truncated where no offset opens a
FLAG; else, with o the least such offset and the whole bytes after it, Truncated where none is 7E; else, with raw
the bytes before the first 7E, EscapeError where FR.UNESCAPE(raw) fails; else, with its body, Truncated where the
body is longer than the bound or shorter than 4; else, splitting its last four bytes off, CrcMismatch where they
differ from CRC32LE of the rest, and Ok of the rest where they do not. The order of the verdicts is the spec's own
inference in R162 from R156. -/
def Obligations.VerdictPrecedence : Prop :=
  ∀ (bits : List Bool) (bodyMax : Nat),
    ((∀ o, ¬ opensAt bits o) → frDecode bits bodyMax = .err .truncated) ∧
    (∀ o, opensAt bits o →
      (0x7E#8 ∉ bytesOf (bits.drop (o + 8)) → frDecode bits bodyMax = .err .truncated) ∧
      (∀ raw tail, bytesOf (bits.drop (o + 8)) = raw ++ 0x7E#8 :: tail → 0x7E#8 ∉ raw →
        (frUnescape raw = .err .escapeError → frDecode bits bodyMax = .err .escapeError) ∧
        (∀ body, frUnescape raw = .ok body →
          (bodyMax < body.length ∨ body.length < 4 → frDecode bits bodyMax = .err .truncated) ∧
          (∀ payload trailer, body = payload ++ trailer → trailer.length = 4 → body.length ≤ bodyMax →
            (trailer ≠ crc32le payload → frDecode bits bodyMax = .err .crcMismatch) ∧
            (trailer = crc32le payload → frDecode bits bodyMax = .ok payload)))))

/-- O20 (R161, R164). For every payload p, index i of its body p ++ CRC32LE(p) and byte b other than body byte i: raw
bytes without a 7E that unescape to the body with byte i replaced by b, between two flags, decode to
Err(CrcMismatch). A single flipped bit that keeps every raw byte's class and pairing is the case of R164 (a). The
CRC algorithm is from general knowledge (log 13). -/
def Obligations.ByteErrorIsDetected : Prop :=
  ∀ (p raw : List Byte) (i bodyMax : Nat) (b old : Byte),
    (p ++ crc32le p)[i]? = some old → b ≠ old → p.length + 4 ≤ bodyMax → 0x7E#8 ∉ raw →
    frUnescape raw = .ok ((p ++ crc32le p).set i b) →
    frDecode (bitsOf (0x7E#8 :: (raw ++ [0x7E#8]))) bodyMax = .err .crcMismatch

/-- O21 (R101, R102, R103, R105, R115). For every state and operands, exec of each of the 17 rows answers the next state
that differs from the state in nothing but the strobes, which are 0, and the response, which is the row's result:
delimiter, x XOR 0x20, the literal, the sequence bit, the slots of the frame, and the value of the codec function.
That the result stands in a response field is the model's choice (log 5). -/
def Obligations.CodecRowsComplete : Prop :=
  ∀ s : State,
    exec .wireFlag s = .next (s.answer .delimiter) ∧
    (∀ x : Byte, exec (.wireEsc x) s = .next (s.answer (.bodyByte (x ^^^ 0x20#8)))) ∧
    (∀ b : Byte, exec (.wireLit b) s = .next (s.answer (.bodyByte b))) ∧
    (∀ q : Bool, exec (.hdr q) s = .next (s.answer (.seqBit q))) ∧
    (∀ p : List Byte, exec (.frame p) s
      = .next (s.answer (.slots (bitsOf ([0x7E#8] ++ frEscape (p ++ crc32le p) ++ [0x7E#8]))))) ∧
    (∀ bits t0 T, exec (.btEncode bits t0 T) s = .next (s.answer (.actions (btEncode bits t0 T)))) ∧
    (∀ d T, exec (.btSlot d T) s = .next (s.answer (.slot (btSlot d T)))) ∧
    (∀ ts tref T W M, exec (.btDecodeFixed ts tref T W M) s = .next (s.answer (.recovered
      (btDecodeFixed ts tref T W M).bits (btDecodeFixed ts tref T W M).namb (btDecodeFixed ts tref T W M).ovf))) ∧
    (∀ ts tref T W M, exec (.btDecodeReanchor ts tref T W M) s = .next (s.answer (.recovered
      (btDecodeReanchor ts tref T W M).bits (btDecodeReanchor ts tref T W M).namb
      (btDecodeReanchor ts tref T W M).ovf))) ∧
    (∀ ks W, exec (.assemble ks W) s = .next (s.answer (.assembled (assemble ks W).1 (assemble ks W).2))) ∧
    (∀ p, exec (.crc32 p) s = .next (s.answer (.crc (crc32 p)))) ∧
    (∀ p, exec (.crc32le p) s = .next (s.answer (.bytes (crc32le p)))) ∧
    (∀ B, exec (.frEscape B) s = .next (s.answer (.bytes (frEscape B)))) ∧
    (∀ p, exec (.frEncode p) s = .next (s.answer (.bytes (frEncode p)))) ∧
    (∀ raw, exec (.frUnescape raw) s = .next (s.answer (.verdict (frUnescape raw)))) ∧
    (∀ bits bodyMax, exec (.frDecode bits bodyMax) s = .next (s.answer (.verdict (frDecode bits bodyMax)))) ∧
    (∀ r, s.answer r = { s with dataOut := false, ackOut := false, response := r })

/-- O22 (R231). For every state and register: exec of REG.RD at its offset answers the next state whose response is
(value, ok = 1) with the value of the rule's table, and which differs in nothing else but the strobes, which are 0,
and NOW_HI_SHADOW, which a read of NOW_LO sets to NOW[63:32]. At every offset that is no register's, the response is
(0, ok = 0) and nothing else changes. -/
def Obligations.RegisterReads : Prop :=
  ∀ s : State,
    (∀ r : Reg, exec (.regRd r.offset) s = .next
      { s with
        nowHiShadow := if r = .nowLo then BitVec.ofNat 32 (s.now / 2 ^ 32) else s.nowHiShadow
        dataOut := false
        ackOut := false
        response := .read (match r with
          | .cmd => 0#32
          | .flags => s.flags.zeroExtend 32
          | .irqEn => s.irqEn.zeroExtend 32
          | .errCode => s.errCode.code.zeroExtend 32
          | .cfgMode => (BitVec.ofBool s.reanchor).zeroExtend 32
          | .cfgTslot => s.cfgTslot
          | .cfgTidle => s.cfgTidle
          | .cfgTack => s.cfgTack
          | .cfgMaxRetry => s.cfgMaxRetry.zeroExtend 32
          | .cfgAmbig => s.cfgAmbig
          | .selfId => s.build.selfId
          | .peerId => s.peerId
          | .txLen => s.txLen
          | .txStatus => s.txState.code.zeroExtend 32 ||| (BitVec.ofBool s.txSeq).zeroExtend 32 <<< 3
              ||| s.txResult.code.zeroExtend 32 <<< 4 ||| s.txRetry.zeroExtend 32 <<< 6
              ||| s.txLastRetries.zeroExtend 32 <<< 15
          | .rxStatus => s.rxState.code.zeroExtend 32 ||| (BitVec.ofBool s.rxEn).zeroExtend 32 <<< 1
              ||| (BitVec.ofBool s.rxSession).zeroExtend 32 <<< 2 ||| (BitVec.ofBool s.rxLastSeq).zeroExtend 32 <<< 3
              ||| s.rxResult.code.zeroExtend 32 <<< 4
          | .rxLen => s.rxLen
          | .rxAmbig => s.rxAmbig.zeroExtend 32
          | .nowLo => BitVec.ofNat 32 s.now
          | .nowHi => s.nowHiShadow) true }) ∧
    (∀ off : Nat, (∀ r : Reg, r.offset ≠ off) →
      exec (.regRd off) s = .next { s with dataOut := false, ackOut := false, response := .read 0#32 false })

/-- O23 (R40, R41). For every state: bits 2:0, 3, 5:4, 14:6, 23:15 of TX_STATUS are TX_STATE, TX_SEQ, TX_RESULT,
TX_RETRY, TX_LAST_RETRIES and bits 31:24 are 0; bits 0, 1, 2, 3, 6:4 of RX_STATUS are RX_STATE, RX_EN, RX_SESSION,
RX_LASTSEQ, RX_RESULT and bits 31:7 are 0; with the codes the rules give the results. -/
def Obligations.StatusReadouts : Prop :=
  ∀ s : State,
    (s.txStatus.extractLsb' 0 3 = (match s.txState with | .idle => 0 | .sending => 1 | .waitingAck => 2 | .failed => 3) ∧
      s.txStatus.getLsbD 3 = s.txSeq ∧
      s.txStatus.extractLsb' 4 2 = (match s.txResult with | .none => 0 | .success => 1 | .maxRetriesExceeded => 2) ∧
      s.txStatus.extractLsb' 6 9 = s.txRetry ∧ s.txStatus.extractLsb' 15 9 = s.txLastRetries ∧
      s.txStatus.extractLsb' 24 8 = 0) ∧
    (s.rxStatus.getLsbD 0 = decide (s.rxState = .receiving) ∧ s.rxStatus.getLsbD 1 = s.rxEn ∧
      s.rxStatus.getLsbD 2 = s.rxSession ∧ s.rxStatus.getLsbD 3 = s.rxLastSeq ∧
      s.rxStatus.extractLsb' 4 3 = (match s.rxResult with
        | .none => 0 | .delivered => 1 | .duplicate => 2 | .crcMismatch => 3 | .truncated => 4 | .escapeError => 5
        | .headerError => 6 | .busy => 7) ∧
      s.rxStatus.extractLsb' 7 25 = 0)

/-- O24 (R44). For every state: RD NOW_LO returns NOW[31:0] and changes nothing but NOW_HI_SHADOW and the outputs of the
operation; after any sequence of ticks that completes, RD NOW_HI returns the NOW[63:32] of the first read; and where
NOW < 2^64 the two values together are that NOW. -/
def Obligations.NowReadsConsistent : Prop :=
  ∀ s : State, ∃ u : State,
    exec (.regRd 0x44) s = .next u ∧
    u = { s with
          nowHiShadow := BitVec.ofNat 32 (s.now / 2 ^ 32)
          dataOut := false
          ackOut := false
          response := .read (BitVec.ofNat 32 s.now) true } ∧
    (∀ (l : List (Bool × Bool)) (t : State), runTicks l u = some t →
      exec (.regRd 0x48) t = .next
        { t with dataOut := false, ackOut := false, response := .read (BitVec.ofNat 32 (s.now / 2 ^ 32)) true }) ∧
    (s.now < 2 ^ 64 →
      (BitVec.ofNat 32 (s.now / 2 ^ 32)).toNat * 2 ^ 32 + (BitVec.ofNat 32 s.now).toNat = s.now)

/-- O25 (R232). For every state and value: REG.WR at CMD performs the command the value encodes; at FLAGS, IRQ_EN,
TX_LEN, PEER_ID and the six CFG registers it does what the row of that register does; at the eight read-only
registers and at every offset that is no register's the response is ok = 0 and nothing else but the strobes changes. -/
def Obligations.RegisterWrites : Prop :=
  ∀ (v : Word) (s : State),
    exec (.regWr 0x00 v) s = (if v = 0 then exec .nop s else if v = 1 then exec .send s
      else if v = 2 then exec .rxEnable s else if v = 3 then exec .rxDisable s
      else if v = 4 then exec .softReset s else exec (.cmdReserved v) s) ∧
    exec (.regWr 0x04 v) s = exec (.regWrFlags v) s ∧ exec (.regWr 0x08 v) s = exec (.regWrIrqEn v) s ∧
    exec (.regWr 0x30 v) s = exec (.regWrTxLen v) s ∧ exec (.regWr 0x10 v) s = exec (.regWrCfgMode v) s ∧
    exec (.regWr 0x14 v) s = exec (.regWrCfgTslot v) s ∧ exec (.regWr 0x18 v) s = exec (.regWrCfgTidle v) s ∧
    exec (.regWr 0x1C v) s = exec (.regWrCfgTack v) s ∧ exec (.regWr 0x20 v) s = exec (.regWrCfgMaxRetry v) s ∧
    exec (.regWr 0x24 v) s = exec (.regWrCfgAmbig v) s ∧ exec (.regWr 0x2C v) s = exec (.regWrPeerId v) s ∧
    (∀ off : Nat, off ∈ [0x0C, 0x28, 0x34, 0x38, 0x3C, 0x40, 0x44, 0x48] ∨ (∀ r : Reg, r.offset ≠ off) →
      exec (.regWr off v) s = .next { s with dataOut := false, ackOut := false, response := .written false })

/-- O26 (R236, R237). For every state and value, in every state of the roles: after WR FLAGS flag f is pending exactly
where it was and bit f of the value is 0; after WR IRQ_EN the enables are bits 7:0; after WR TX_LEN the length is
the value; the response is ok = 1, the strobes are 0 and every other part of the state is as before. -/
def Obligations.FlagsIrqEnTxLenWrites : Prop :=
  ∀ (v : Word) (s : State),
    (∃ flags' : BitVec 8,
      exec (.regWrFlags v) s = .next
        { s with flags := flags', dataOut := false, ackOut := false, response := .written true } ∧
      ∀ i, i < 8 → flags'.getLsbD i = (s.flags.getLsbD i && !v.getLsbD i)) ∧
    (∃ irqEn' : BitVec 8,
      exec (.regWrIrqEn v) s = .next
        { s with irqEn := irqEn', dataOut := false, ackOut := false, response := .written true } ∧
      ∀ i, i < 8 → irqEn'.getLsbD i = v.getLsbD i) ∧
    exec (.regWrTxLen v) s = .next
      { s with txLen := v, dataOut := false, ackOut := false, response := .written true }

/-- O27 (R238, R239). For every state and value. Where TX_STATE is IDLE or FAILED, RX_STATE is IDLE and RX_EN = 0:
PEER_ID takes the value and PEER_VALID becomes 1, and each CFG register takes its writable bits, whatever the value,
with ok = 1 and nothing else changed. Where not: for each of the seven, CMD_ERR is set, ERR_CODE is LOCKED, ok = 1,
and nothing else changes. -/
def Obligations.LockedWrites : Prop :=
  ∀ (v : Word) (s : State),
    ((s.txState = .idle ∨ s.txState = .failed) ∧ s.rxState = .idle ∧ s.rxEn = false →
      exec (.regWrPeerId v) s = .next
        { s with peerId := v, peerValid := true, dataOut := false, ackOut := false, response := .written true } ∧
      exec (.regWrCfgMode v) s = .next
        { s with reanchor := v.getLsbD 0, dataOut := false, ackOut := false, response := .written true } ∧
      exec (.regWrCfgTslot v) s = .next
        { s with cfgTslot := v, dataOut := false, ackOut := false, response := .written true } ∧
      exec (.regWrCfgTidle v) s = .next
        { s with cfgTidle := v, dataOut := false, ackOut := false, response := .written true } ∧
      exec (.regWrCfgTack v) s = .next
        { s with cfgTack := v, dataOut := false, ackOut := false, response := .written true } ∧
      exec (.regWrCfgMaxRetry v) s = .next
        { s with cfgMaxRetry := v.extractLsb' 0 8, dataOut := false, ackOut := false, response := .written true } ∧
      exec (.regWrCfgAmbig v) s = .next
        { s with cfgAmbig := v, dataOut := false, ackOut := false, response := .written true }) ∧
    (¬((s.txState = .idle ∨ s.txState = .failed) ∧ s.rxState = .idle ∧ s.rxEn = false) →
      ∀ i ∈ [Instr.regWrPeerId v, .regWrCfgMode v, .regWrCfgTslot v, .regWrCfgTidle v, .regWrCfgTack v,
          .regWrCfgMaxRetry v, .regWrCfgAmbig v], exec i s = .next (s.afterReject .locked))

/-- O28 (R74, R79, R266). For every access, of any width and value, and every state: what its record decodes to
completes. Where the access is 4 bytes wide at a listed offset that is a multiple of 4 and no write to a read-only
register, or 1 byte wide at an address below MAX_PAYLOAD of a buffer and no write to RXBUF, it has ok = 1. Every
other access has ok = 0, a read returns 0 with it, and nothing but the strobes and the response changes. A read of
CMD returns 0 with ok = 1. A write to a locked register while the block is not quiescent has ok = 1, changes
nothing, and raises CmdReject(LOCKED). -/
def Obligations.BusAccessLegality : Prop :=
  ∀ (a : Access) (s : State),
    (s.allows a → ∃ t : State, exec (decode (.bus a)) s = .next t ∧
      (match a.op with
        | .rd => ∃ v, t.response = .read v true
        | .wr _ => t.response = .written true)) ∧
    (¬ s.allows a → exec (decode (.bus a)) s = .next { s with
      dataOut := false, ackOut := false,
      response := match a.op with | .rd => .read 0#32 false | .wr _ => .written false }) ∧
    exec (decode (.bus { op := .rd, space := .reg, addr := 0x00, width := 4 })) s = .next { s with
      dataOut := false, ackOut := false, response := .read 0#32 true } ∧
    (¬((s.txState = .idle ∨ s.txState = .failed) ∧ s.rxState = .idle ∧ s.rxEn = false) →
      ∀ off ∈ [0x10, 0x14, 0x18, 0x1C, 0x20, 0x24, 0x2C], ∀ v : Word,
        exec (decode (.bus { op := .wr v, space := .reg, addr := off, width := 4 })) s
          = .next (s.afterReject .locked))

/-- O29 (R233, R234). For every state whose memory is canonical, and address a. Below MAX_PAYLOAD: BUF.RD of TXBUF or
RXBUF returns the byte at 0x400 + a or 0x800 + a with ok = 1 and changes nothing else; BUF.WR answers ok = 1, reads
back at 0x400 + a, leaves every other address of the memory and every other part of the state as before. At or
beyond it, and for every access that is BUS.ERROR: ok = 0, a read returns 0, and nothing but the strobes and the
response changes. -/
def Obligations.BufferAccess : Prop :=
  ∀ (s : State) (a : Nat) (b : Byte), Memory.wf s.mem = true →
    (a < s.build.maxPayload →
      exec (.bufRd .txbuf a) s = .next { s with
        dataOut := false, ackOut := false, response := .read ((s.mem.read (0x400 + a)).zeroExtend 32) true } ∧
      exec (.bufRd .rxbuf a) s = .next { s with
        dataOut := false, ackOut := false, response := .read ((s.mem.read (0x800 + a)).zeroExtend 32) true } ∧
      ∃ m : Memory,
        exec (.bufWr a b) s = .next
          { s with mem := m, dataOut := false, ackOut := false, response := .written true } ∧
        m.read (0x400 + a) = b ∧ (∀ x, x ≠ 0x400 + a → m.read x = s.mem.read x)) ∧
    (s.build.maxPayload ≤ a →
      (∀ sp : BufSpace, exec (.bufRd sp a) s = .next
        { s with dataOut := false, ackOut := false, response := .read 0#32 false }) ∧
      exec (.bufWr a b) s = .next { s with dataOut := false, ackOut := false, response := .written false }) ∧
    (∀ acc : Access, exec (.busError acc) s = .next { s with
      dataOut := false, ackOut := false,
      response := match acc.op with | .rd => .read 0#32 false | .wr _ => .written false })

/-- O30 (R109, R241). For every state: NOP answers ok = 1 with the strobes 0 and every other part of the state as
before; a write to CMD of any value above 4 sets CMD_ERR and ERR_CODE = UNKNOWN_CMD, answers ok = 1, and changes
nothing else. -/
def Obligations.NopAndReservedCommands : Prop :=
  ∀ s : State,
    exec .nop s = .next { s with dataOut := false, ackOut := false, response := .written true } ∧
    ∀ v : Word, 4 < v.toNat → exec (.cmdReserved v) s = .next (s.afterReject .unknownCmd)

/-- O31 (R242, R243). For every state: SOFT_RESET gives the 22 elements the rule lists their reset value and keeps NOW,
NOW_HI_SHADOW, IRQ_EN, the configuration, PEER_ID, PEER_VALID, TX_LEN and both buffers; RESET gives every element
the value of the reset column of R52, every byte of both buffers reading 00, the interrupt line 0, the build
parameters and the strap unaffected, and the operations still to come untouched. -/
def Obligations.ResetOperations : Prop :=
  ∀ s : State,
    exec .softReset s = .next
      { s with
        flags := 0#8, errCode := .none, rxLen := 0#32, txState := .idle, txIdx := 0, txSeq := false, ackSeen := false,
        txFrame := [], txT0 := 0, txDeadline := 0, txRetry := 0#9, txLastRetries := 0#9, txResult := .none,
        rxEn := false, rxState := .idle, rxTs := [], rxTfirst := 0, rxTlast := 0, rxSession := false,
        rxLastSeq := false, rxResult := .none, rxAmbig := 0#16,
        dataOut := false, ackOut := false, response := .written true } ∧
    ∃ t : State, exec .reset s = .next t ∧
      t = { build := s.build, now := 0, nowHiShadow := 0#32, flags := 0#8, irqEn := 0#8, errCode := .none,
            reanchor := false, cfgTslot := 10#32,
            cfgTidle := BitVec.ofNat 32 ((8 * (s.build.maxPayload + 5) + 4) * 10),
            cfgTack := BitVec.ofNat 32 (4 * (8 * (s.build.maxPayload + 5) + 4) * 10),
            cfgMaxRetry := 3#8, cfgAmbig := 1#32, peerId := 0#32, peerValid := false, txLen := 0#32, mem := t.mem,
            rxLen := 0#32, txState := .idle, txIdx := 0, txSeq := false, ackSeen := false, txFrame := [], txT0 := 0,
            txDeadline := 0, txRetry := 0#9, txLastRetries := 0#9, txResult := .none, rxEn := false,
            rxState := .idle, rxTs := [], rxTfirst := 0, rxTlast := 0, rxSession := false, rxLastSeq := false,
            rxResult := .none, rxAmbig := 0#16, dataOut := false, ackOut := false, response := .none,
            script := s.script } ∧
      (∀ a, t.mem.read a = 0#8) ∧ t.irq = false

/-- O32 (R268). For every state, irq = 1 exactly where some bit i below 8 is 1 in FLAGS and in IRQ_EN; after RESET of
any instance IRQ_EN = 0 and irq = 0. The line is a function of the state after an operation and is stored nowhere,
so no operation reads it. -/
def Obligations.InterruptLevel : Prop :=
  (∀ s : State, s.irq = true ↔ ∃ i, i < 8 ∧ s.flags.getLsbD i = true ∧ s.irqEn.getLsbD i = true) ∧
  (∀ b : Build, (State.resetOf b).irqEn = 0#8 ∧ (State.resetOf b).irq = false)

/-- O33 (R181). For every state: BAD_STATE in SENDING or WAITING_ACK; else NO_PEER where PEER_VALID = 0; else BAD_LENGTH
where TX_LEN > MAX_PAYLOAD; else BAD_CONFIG where cfg_ok fails; a rejected SEND changes nothing but CMD_ERR,
ERR_CODE and the outputs of the operation. Else the next state holds FR.ENCODE of the header byte with TX_SEQ and
the TX_LEN bytes of TXBUF, SENDING, TX_T0 = NOW, TX_IDX, TX_RETRY, TX_RESULT and ACK_SEEN 0, TX_DONE and TX_FAIL
cleared, and everything else, the memory included, as before. -/
def Obligations.SendCommand : Prop :=
  ∀ s : State,
    (s.txState = .sending ∨ s.txState = .waitingAck → exec .send s = .next (s.afterReject .badState)) ∧
    (s.txState = .idle ∨ s.txState = .failed →
      (s.peerValid = false → exec .send s = .next (s.afterReject .noPeer)) ∧
      (s.peerValid = true → s.build.maxPayload < s.txLen.toNat → exec .send s = .next (s.afterReject .badLength)) ∧
      (s.peerValid = true → s.txLen.toNat ≤ s.build.maxPayload →
        ¬(1 ≤ s.cfgTslot.toNat ∧ s.cfgTslot.toNat < s.cfgTidle.toNat ∧ 1 ≤ s.cfgTack.toNat) →
        exec .send s = .next (s.afterReject .badConfig)) ∧
      (s.peerValid = true → s.txLen.toNat ≤ s.build.maxPayload →
        1 ≤ s.cfgTslot.toNat ∧ s.cfgTslot.toNat < s.cfgTidle.toNat ∧ 1 ≤ s.cfgTack.toNat →
        exec .send s = .next
          { s with
            txFrame := frEncode ((if s.txSeq then 1#8 else 0#8)
              :: (List.range s.txLen.toNat).map fun i => s.mem.read (0x400 + i))
            txState := .sending
            txT0 := s.now
            txIdx := 0
            txRetry := 0#9
            txResult := .none
            ackSeen := false
            flags := s.flags &&& 0b11111100#8
            dataOut := false
            ackOut := false
            response := .written true }))

/-- O34 (R185). For every state: in WAITING_ACK the next state has ACK_SEEN = 1, in IDLE, SENDING and FAILED nothing is
written; the strobes are 0, there is no response, and everything else is as before. -/
def Obligations.AckCapture : Prop :=
  ∀ s : State,
    (s.txState = .waitingAck → exec .ackCapture s = .next
      { s with ackSeen := true, dataOut := false, ackOut := false, response := .none }) ∧
    (s.txState ≠ .waitingAck → exec .ackCapture s = .next
      { s with dataOut := false, ackOut := false, response := .none })

/-- O35 (R182, R187, R190). For every state: TX.HOLD in IDLE, TX.HOLD in FAILED, TX.WAITSLOT in SENDING where the next
bit is not due, and TX.WAIT in WAITING_ACK with no acknowledgment before the deadline, complete with data_out = 0
and nothing else written; and phase P4 then writes nothing either. In a state that meets the invariants, not due
means now < TX_T0 + TX_IDX*T. That the slot waited for is never in the past is the spec's own inference in R190 from
R181, R183 and R188; the rest is what R182, R187 and R190 state. -/
def Obligations.TxIdleRows : Prop :=
  ∀ s : State,
    (s.txState = .idle →
      exec .txHoldIdle s = .next { s with dataOut := false, ackOut := false, response := .none } ∧ s.phaseTx = s) ∧
    (s.txState = .failed →
      exec .txHoldFailed s = .next { s with dataOut := false, ackOut := false, response := .none } ∧ s.phaseTx = s) ∧
    (s.txState = .sending → s.now ≠ s.txT0 + s.txIdx * s.cfgTslot.toNat →
      exec .txWaitSlot s = .next { s with dataOut := false, ackOut := false, response := .none } ∧ s.phaseTx = s ∧
      (s.Inv → s.now < s.txT0 + s.txIdx * s.cfgTslot.toNat)) ∧
    (s.txState = .waitingAck → s.ackSeen = false → s.now < s.txDeadline →
      exec .txWait s = .next { s with dataOut := false, ackOut := false, response := .none } ∧ s.phaseTx = s)

/-- O36 (R183, R184). For every state in SENDING whose bit TX_IDX is due, with b the byte TX_IDX / 8 of TX_FRAME. Where
it is not the last bit, TX.EMIT drives data_out with bit 7 - TX_IDX mod 8 of b and adds 1 to TX_IDX. Where it is,
and the no-overflow premise holds, TX.EMITLAST drives the same bit, sets TX_IDX = TX_NBITS, WAITING_ACK, TX_DEADLINE
= now + T_ACK and clears ACK_SEEN. Everything else is as before. -/
def Obligations.TxEmitRows : Prop :=
  ∀ (s : State) (b : Byte), s.txState = .sending → s.now = s.txT0 + s.txIdx * s.cfgTslot.toNat →
    s.txFrame[s.txIdx / 8]? = some b →
    (s.txIdx + 1 ≠ 8 * s.txFrame.length → exec .txEmit s = .next
      { s with
        dataOut := b.getLsbD (7 - s.txIdx % 8)
        txIdx := s.txIdx + 1
        ackOut := false
        response := .none }) ∧
    (s.txIdx + 1 = 8 * s.txFrame.length → s.timeOk = true → exec .txEmitLast s = .next
      { s with
        dataOut := b.getLsbD (7 - s.txIdx % 8)
        txIdx := 8 * s.txFrame.length
        txState := .waitingAck
        txDeadline := s.now + s.cfgTack.toNat
        ackSeen := false
        ackOut := false
        response := .none })

/-- O37 (R186, R188, R189). For every state in WAITING_ACK. With ACK_SEEN: TX.ACKED moves TX_RETRY to TX_LAST_RETRIES,
toggles TX_SEQ, goes to IDLE with SUCCESS and TX_DONE. Without it and from the deadline on: with TX_RETRY <
MAX_RETRY and the no-overflow premise, TX.RETX adds 1 to TX_RETRY and goes to SENDING with TX_T0 = now + 1 and
TX_IDX = 0; with TX_RETRY >= MAX_RETRY, TX.FAIL adds 1 to TX_RETRY and goes to FAILED with MAX_RETRIES_EXCEEDED and
TX_FAIL. ACK_SEEN becomes 0, no strobe is driven, and everything else, the frame included, is as before. -/
def Obligations.TxWaitingRows : Prop :=
  ∀ s : State, s.txState = .waitingAck →
    (s.ackSeen = true → exec .txAcked s = .next
      { s with
        txLastRetries := s.txRetry, txRetry := 0#9, txSeq := !s.txSeq, txState := .idle, txResult := .success,
        flags := s.flags ||| 0x01#8, ackSeen := false, dataOut := false, ackOut := false, response := .none }) ∧
    (s.ackSeen = false → s.txDeadline ≤ s.now → s.txRetry.toNat < s.cfgMaxRetry.toNat → s.timeOk = true →
      exec .txRetx s = .next
        { s with
          txRetry := s.txRetry + 1#9, txState := .sending, txT0 := s.now + 1, txIdx := 0, ackSeen := false,
          dataOut := false, ackOut := false, response := .none }) ∧
    (s.ackSeen = false → s.txDeadline ≤ s.now → s.cfgMaxRetry.toNat ≤ s.txRetry.toNat →
      exec .txFail s = .next
        { s with
          txRetry := s.txRetry + 1#9, txState := .failed, txResult := .maxRetriesExceeded,
          flags := s.flags ||| 0x02#8, ackSeen := false, dataOut := false, ackOut := false, response := .none })

/-- O38 (R131, R183, R190, R191). For every state that meets the invariants, in SENDING with TX_IDX = 0 and TX_T0 = NOW
(after SEND or TX.RETX and its tick), every k up to (TX_NBITS - 1)*T, and every sequence of k + 1 ticks, whatever
strobes they bring, inside the no-overflow premise: the ticks complete, and the last of them drives data_out exactly
where T divides k and bit k/T of the frame, serialised, is 1; the sender is then in WAITING_ACK exactly where k =
(TX_NBITS - 1)*T, and else still in SENDING. -/
def Obligations.TransmissionPulses : Prop :=
  ∀ (s : State) (k : Nat) (l : List (Bool × Bool)), s.Inv → s.txState = .sending → s.txIdx = 0 → s.txT0 = s.now →
    k ≤ (8 * s.txFrame.length - 1) * s.cfgTslot.toNat → l.length = k + 1 → s.timeOkFor l.length →
    ∃ t, runTicks l s = some t ∧
      t.dataOut = (decide (k % s.cfgTslot.toNat = 0) && ((bitsOf s.txFrame)[k / s.cfgTslot.toNat]?.getD false)) ∧
      (t.txState = .waitingAck ↔ k = (8 * s.txFrame.length - 1) * s.cfgTslot.toNat) ∧
      (t.txState = .sending ↔ k < (8 * s.txFrame.length - 1) * s.cfgTslot.toNat)

/-- O39 (R189, R191, R192). For every state that meets the invariants, in SENDING with TX_IDX = 0, TX_T0 = NOW and
TX_RETRY = 0, and every sequence of ticks without an ACK-PULSE (with any DATA-PULSEs) inside the no-overflow
premise. With N = (MAX_RETRY + 1)*((n - 1)*T + T_ACK) + MAX_RETRY: after at most N ticks the sender is not in
FAILED; after N + 1 ticks it is, with TX_RESULT 2, TX_RETRY = MAX_RETRY + 1, TX_FAIL set, TX_SEQ and TX_FRAME as
they were, and NOW advanced by N + 1. -/
def Obligations.ScheduleToFailure : Prop :=
  ∀ (s : State) (l : List (Bool × Bool)), s.Inv → s.txState = .sending → s.txIdx = 0 → s.txT0 = s.now →
    s.txRetry = 0#9 → (∀ x ∈ l, x.2 = false) → s.timeOkFor l.length →
    (l.length ≤ (s.cfgMaxRetry.toNat + 1) * ((8 * s.txFrame.length - 1) * s.cfgTslot.toNat + s.cfgTack.toNat)
        + s.cfgMaxRetry.toNat →
      ∃ t, runTicks l s = some t ∧ t.txState ≠ .failed) ∧
    (l.length = (s.cfgMaxRetry.toNat + 1) * ((8 * s.txFrame.length - 1) * s.cfgTslot.toNat + s.cfgTack.toNat)
        + s.cfgMaxRetry.toNat + 1 →
      ∃ t, runTicks l s = some t ∧ t.txState = .failed ∧ t.txResult = .maxRetriesExceeded ∧
        t.txRetry.toNat = s.cfgMaxRetry.toNat + 1 ∧ t.hasFlag .txFail = true ∧ t.txSeq = s.txSeq ∧
        t.txFrame = s.txFrame ∧ t.now = s.now + l.length)

/-- O40 (R25, R186). For every operation and state: where the next state has another TX_SEQ, either the operation is
RESET or the command SOFT_RESET and TX_SEQ is 0 afterwards, or it is a tick, or TX.ACKED, that found the sender in
WAITING_ACK and left it in IDLE with SUCCESS and TX_DONE set. -/
def Obligations.SequenceToggles : Prop :=
  ∀ (i : Instr) (s t : State), exec i s = .next t → t.txSeq ≠ s.txSeq →
    ((i = .reset ∨ commandOf i = some 4) ∧ t.txSeq = false) ∨
    ((i = .txAcked ∨ ∃ d a, i = .tick d a) ∧ s.txState = .waitingAck ∧ t.txState = .idle ∧ t.txResult = .success ∧
      t.hasFlag .txDone = true)

/-- O41 (R47, R84). For every operation and state: where the next state has another TX_FRAME, either the operation is
RESET or the command SOFT_RESET and the frame is empty afterwards, or it is the command SEND, found the sender in
IDLE or FAILED, left it in SENDING, and the frame is FR.ENCODE of the header byte with TX_SEQ and the TX_LEN bytes
of TXBUF. -/
def Obligations.RetainedFrame : Prop :=
  ∀ (i : Instr) (s t : State), exec i s = .next t → t.txFrame ≠ s.txFrame →
    ((i = .reset ∨ commandOf i = some 4) ∧ t.txFrame = []) ∨
    (commandOf i = some 1 ∧ (s.txState = .idle ∨ s.txState = .failed) ∧ t.txState = .sending ∧
      t.txFrame = frEncode ((if s.txSeq then 1#8 else 0#8)
        :: (List.range s.txLen.toNat).map fun j => s.mem.read (0x400 + j)))

/-- O42 (R80, R112, R113, R114). For every state: exec of a P4 operation whose row the vector does not match, of
RX.START unless IDLE and armed, of RX.CAPTURE in IDLE, of RX.CLOSE unless RECEIVING and idle expired, of RX.DUP for
a frame that is no duplicate, of RX.BUSY for a duplicate or while RX_MSG = 0, and of RX.DELIVER for a duplicate or
while RX_MSG = 1, answers the state with the strobes 0 and no response. The spec never performs a row alone: this is
the model's choice (log 4). -/
def Obligations.UnselectedRowsWriteNothing : Prop :=
  ∀ s : State,
    (∀ op : TxOp, op ≠ s.txOp → exec op.toInstr s = .next s.quiet) ∧
    (¬(s.rxState = .idle ∧ s.rxEn = true) → exec .rxStart s = .next s.quiet) ∧
    (s.rxState = .idle → exec .rxCapture s = .next s.quiet) ∧
    (¬(s.rxState = .receiving ∧ s.rxTlast + s.cfgTidle.toNat < s.now) → exec .rxClose s = .next s.quiet) ∧
    (∀ q : Bool, ¬(s.rxSession = true ∧ s.rxLastSeq = q) → exec (.rxDup q) s = .next s.quiet) ∧
    (∀ q : Bool, (s.rxSession = true ∧ s.rxLastSeq = q) ∨ s.flags.getLsbD 2 = false →
      exec (.rxBusy q) s = .next s.quiet) ∧
    (∀ (q : Bool) (m : List Byte), (s.rxSession = true ∧ s.rxLastSeq = q) ∨ s.flags.getLsbD 2 = true →
      exec (.rxDeliver q m) s = .next s.quiet) ∧
    s.quiet = { s with dataOut := false, ackOut := false, response := .none }

/-- O43 (R200, R201). For every state: RX_ENABLE is rejected with NO_PEER where PEER_VALID = 0, else with BAD_CONFIG
where cfg_ok fails, else sets RX_EN = 1; RX_DISABLE sets RX_EN = 0, in every state; ok = 1, the strobes are 0 and
everything else, an open window included, is as before. -/
def Obligations.RxEnableDisable : Prop :=
  ∀ s : State,
    (s.peerValid = false → exec .rxEnable s = .next (s.afterReject .noPeer)) ∧
    (s.peerValid = true →
      ¬(1 ≤ s.cfgTslot.toNat ∧ s.cfgTslot.toNat < s.cfgTidle.toNat ∧ 1 ≤ s.cfgTack.toNat) →
      exec .rxEnable s = .next (s.afterReject .badConfig)) ∧
    (s.peerValid = true →
      1 ≤ s.cfgTslot.toNat ∧ s.cfgTslot.toNat < s.cfgTidle.toNat ∧ 1 ≤ s.cfgTack.toNat →
      exec .rxEnable s = .next
        { s with rxEn := true, dataOut := false, ackOut := false, response := .written true }) ∧
    exec .rxDisable s = .next { s with rxEn := false, dataOut := false, ackOut := false, response := .written true }

/-- O44 (R202, R203, R204, R212). For every state. IDLE and disarmed: RX.IGNORE writes nothing. IDLE and armed: RX.START
gives RECEIVING with RX_TS = [now] and RX_TFIRST = RX_TLAST = now. RECEIVING: RX.CAPTURE sets RX_TLAST = now and
appends now to RX_TS where it has room, else sets RX_OVF; and where now - RX_TLAST <= T_IDLE, the three rows of
RX.WAIT write nothing, and phase P3 writes nothing. No strobe is driven and everything else is as before. -/
def Obligations.RxCaptureAndWaitRows : Prop :=
  ∀ s : State,
    (s.rxState = .idle → s.rxEn = false →
      exec .rxIgnore s = .next { s with dataOut := false, ackOut := false, response := .none }) ∧
    (s.rxState = .idle → s.rxEn = true → exec .rxStart s = .next
      { s with rxState := .receiving, rxTs := [s.now], rxTfirst := s.now, rxTlast := s.now,
               dataOut := false, ackOut := false, response := .none }) ∧
    (s.rxState = .receiving → s.rxTs.length < s.build.rxTsDepth → exec .rxCapture s = .next
      { s with rxTlast := s.now, rxTs := s.rxTs ++ [s.now], dataOut := false, ackOut := false, response := .none }) ∧
    (s.rxState = .receiving → s.build.rxTsDepth ≤ s.rxTs.length → exec .rxCapture s = .next
      { s with rxTlast := s.now, flags := s.flags ||| 0x20#8, dataOut := false, ackOut := false,
               response := .none }) ∧
    (s.rxState = .receiving → (s.now : Int) - s.rxTlast ≤ s.cfgTidle.toNat →
      (∀ i ∈ [Instr.rxWaitStart, .rxWaitCapture, .rxWaitQuiet],
        exec i s = .next { s with dataOut := false, ackOut := false, response := .none }) ∧ s.phaseClose = s)

/-- O45 (R207, R208, R209, R210, R211). For every state whose memory is canonical: RX.DROP_ERR(e) gives RX_RESULT 3, 4
or 5 and RX_ERR; RX.DROP_HDR gives 6 and RX_ERR; RX.DUP of a duplicate gives 2, RX_DUP and ack_out; RX.BUSY of a new
frame while RX_MSG = 1 gives 7 and RX_ERR; RX.DELIVER(q, m) of a new frame while RX_MSG = 0, with len(m) <=
MAX_PAYLOAD, gives 1, RX_MSG, ack_out, RX_LEN = len(m), RX_SESSION = 1, RX_LASTSEQ = q, and RXBUF[i] = m[i] for each
i, every other address of the memory reading as before. Everything else is as before. -/
def Obligations.RxOutcomeRows : Prop :=
  ∀ s : State, Memory.wf s.mem = true →
    (∀ e : FrameError, exec (.rxDropErr e) s = .next
      { s with
        rxResult := match e with | .crcMismatch => .crcMismatch | .truncated => .truncated | .escapeError => .escapeError
        flags := s.flags ||| 0x10#8, dataOut := false, ackOut := false, response := .none }) ∧
    exec .rxDropHdr s = .next
      { s with rxResult := .headerError, flags := s.flags ||| 0x10#8, dataOut := false, ackOut := false,
               response := .none } ∧
    (∀ q : Bool, s.rxSession = true → s.rxLastSeq = q → exec (.rxDup q) s = .next
      { s with rxResult := .duplicate, flags := s.flags ||| 0x08#8, dataOut := false, ackOut := true,
               response := .none }) ∧
    (∀ q : Bool, s.rxSession = false ∨ s.rxLastSeq ≠ q → s.flags.getLsbD 2 = true → exec (.rxBusy q) s = .next
      { s with rxResult := .busy, flags := s.flags ||| 0x10#8, dataOut := false, ackOut := false,
               response := .none }) ∧
    (∀ (q : Bool) (m : List Byte), s.rxSession = false ∨ s.rxLastSeq ≠ q → s.flags.getLsbD 2 = false →
      m.length ≤ s.build.maxPayload →
      ∃ mem' : Memory,
        exec (.rxDeliver q m) s = .next
          { s with mem := mem', rxLen := BitVec.ofNat 32 m.length, flags := s.flags ||| 0x04#8, rxSession := true,
                   rxLastSeq := q, rxResult := .delivered, dataOut := false, ackOut := true, response := .none } ∧
        (∀ (i : Nat) (b : Byte), m[i]? = some b → mem'.read (0x800 + i) = b) ∧
        (∀ x, x < 0x800 ∨ 0x800 + m.length ≤ x → mem'.read x = s.mem.read x))

/-- O46 (R160, R205). For every state in RECEIVING with now - RX_TLAST > T_IDLE: with (bits, namb, ovf) = BT.DECODE of
RX_TS in the mode REANCHOR selects, t_ref = RX_TFIRST - T, and v = FR.DECODE(bits, BODY_MAX), the next state has
RX_AMBIG = min(namb, 0xFFFF), AMBIG set where namb > 0, RX_OVF set where ovf = 1, then the outcome of v by the
rule's case order, then RX_TS = [] and IDLE; the message of an Ok verdict has at most MAX_PAYLOAD bytes. The bound
on the message is the spec's own inference in R205 from R160; the rest is what R205 states. -/
def Obligations.RxCloseRow : Prop :=
  ∀ (s u : State) (r : Recovered) (v : Verdict),
    s.rxState = .receiving → (s.cfgTidle.toNat : Int) < (s.now : Int) - s.rxTlast →
    r = (if s.reanchor
      then btDecodeReanchor s.rxTs ((s.rxTfirst : Int) - s.cfgTslot.toNat) s.cfgTslot.toNat s.build.rxWindowBits
        s.cfgAmbig.toNat
      else btDecodeFixed s.rxTs ((s.rxTfirst : Int) - s.cfgTslot.toNat) s.cfgTslot.toNat s.build.rxWindowBits
        s.cfgAmbig.toNat) →
    v = frDecode r.bits (s.build.maxPayload + 5) →
    u = { s with
          rxAmbig := BitVec.ofNat 16 (min r.namb 0xFFFF)
          flags := s.flags ||| (if 0 < r.namb then 0x80#8 else 0#8) ||| (if r.ovf then 0x20#8 else 0#8)
          dataOut := false
          ackOut := false
          response := .none } →
    exec .rxClose s = .next
      { (match v with
          | .err e => u.doDropErr e
          | .ok [] => u.doDropHdr
          | .ok (h :: m) =>
            if s.rxSession = true ∧ s.rxLastSeq = h.getLsbD 0 then u.doDup
            else if s.flags.getLsbD 2 = true then u.doBusy
            else u.doDeliver (h.getLsbD 0) m) with
        rxTs := [], rxState := .idle } ∧
    ∀ h m, v = .ok (h :: m) → m.length ≤ s.build.maxPayload

/-- O47 (R138, R205, R209, R210, R211, R305). For every instance whose parameters meet R6, canonical memory, and state
in RECEIVING with the idle threshold passed and T >= 1, whose RX_TS holds one stamp for each 1 bit of the Raw Frame
of header byte h and a message m of at most MAX_PAYLOAD bytes, within the bounds of R140 of its mode relative to
RX_TFIRST - T: RX.CLOSE completes in IDLE with RX_TS empty. A duplicate is acknowledged and not delivered. A new
frame while RX_MSG = 1 is BUSY and not acknowledged. Else it is delivered: RXBUF reads m, RX_LEN = len(m), RX_MSG is
set, the session bit is h's bit 0, ack_out = 1, and every other address of the memory reads as before. -/
def Obligations.FrameIsDelivered : Prop :=
  ∀ (s : State) (h : Byte) (m : List Byte), s.build.wf → Memory.wf s.mem = true → s.rxState = .receiving →
    s.rxTlast + s.cfgTidle.toNat < s.now → 1 ≤ s.cfgTslot.toNat → m.length ≤ s.build.maxPayload →
    (s.reanchor = false → stampedInSlots ((s.rxTfirst : Int) - s.cfgTslot.toNat) s.cfgTslot.toNat
      (bitsOf (frEncode (h :: m))) s.rxTs) →
    (s.reanchor = true → gapsInSlots ((s.rxTfirst : Int) - s.cfgTslot.toNat) s.cfgTslot.toNat
      (bitsOf (frEncode (h :: m))) s.rxTs) →
    ∃ t, exec .rxClose s = .next t ∧ t.rxState = .idle ∧ t.rxTs = [] ∧
      (s.rxSession = true ∧ s.rxLastSeq = h.getLsbD 0 →
        t.rxResult = .duplicate ∧ t.hasFlag .rxDup = true ∧ t.ackOut = true ∧ t.mem = s.mem ∧ t.rxLen = s.rxLen) ∧
      (¬(s.rxSession = true ∧ s.rxLastSeq = h.getLsbD 0) → s.hasFlag .rxMsg = true →
        t.rxResult = .busy ∧ t.hasFlag .rxErr = true ∧ t.ackOut = false ∧ t.mem = s.mem ∧ t.rxLen = s.rxLen ∧
        t.rxSession = s.rxSession ∧ t.rxLastSeq = s.rxLastSeq) ∧
      (¬(s.rxSession = true ∧ s.rxLastSeq = h.getLsbD 0) → s.hasFlag .rxMsg = false →
        t.rxResult = .delivered ∧ t.hasFlag .rxMsg = true ∧ t.ackOut = true ∧ t.rxLen.toNat = m.length ∧
        t.rxSession = true ∧ t.rxLastSeq = h.getLsbD 0 ∧
        (∀ (i : Nat) (b : Byte), m[i]? = some b → t.mem.read (0x800 + i) = b) ∧
        (∀ x, x < 0x800 ∨ 0x800 + m.length ≤ x → t.mem.read x = s.mem.read x))

/-- O48 (R42, R46, R78). For every operation and state of an instance whose parameters meet R6: where the next state
reads another byte at an address of RXBUF, or has another RX_LEN, either the operation is RESET or the command
SOFT_RESET, or it is a tick, RX.CLOSE or RX.DELIVER that found RX_MSG = 0 and left it 1. RESET may change both; the
command SOFT_RESET changes no byte of RXBUF, and so RX_LEN alone. -/
def Obligations.RxbufOwnership : Prop :=
  ∀ (i : Instr) (s t : State), s.build.wf → exec i s = .next t →
    ((∃ a, t.mem.read (0x800 + a) ≠ s.mem.read (0x800 + a)) ∨ t.rxLen ≠ s.rxLen →
      i = .reset ∨ commandOf i = some 4 ∨
      ((i = .rxClose ∨ (∃ d a, i = .tick d a) ∨ ∃ q m, i = .rxDeliver q m) ∧
        s.hasFlag .rxMsg = false ∧ t.hasFlag .rxMsg = true)) ∧
    (commandOf i = some 4 → t.mem = s.mem)

/-- O49 (R270). For every state that meets the no-overflow premise. (a) In WAITING_ACK, whatever the deadline, a tick
with ack_in = 1 ends in IDLE with SUCCESS, TX_SEQ toggled and TX_DONE. (b) In RECEIVING, whatever the silence, a
tick with data_in = 1 stays RECEIVING with RX_TLAST = now, no decode attempt and no acknowledgment. (c) In SENDING
at the last bit's tick, a tick with ack_in = 1 ends in WAITING_ACK with ACK_SEEN = 0. (d) A tick that closes the
window had data_in = 0, and where the receiver is still armed a tick with data_in = 1 after it opens a new window. -/
def Obligations.SimultaneousEvents : Prop :=
  ∀ (s : State) (d a : Bool), s.timeOk = true →
    (s.txState = .waitingAck → ∃ t, exec (.tick d true) s = .next t ∧ t.txState = .idle ∧ t.txResult = .success ∧
      t.txSeq = !s.txSeq ∧ t.hasFlag .txDone = true ∧ t.txLastRetries = s.txRetry) ∧
    (s.rxState = .receiving → ∃ t, exec (.tick true a) s = .next t ∧ t.rxState = .receiving ∧ t.rxTlast = s.now ∧
      t.ackOut = false ∧ t.rxResult = s.rxResult ∧ t.rxAmbig = s.rxAmbig) ∧
    (s.txState = .sending → s.now = s.txT0 + s.txIdx * s.cfgTslot.toNat → s.txIdx + 1 = 8 * s.txFrame.length →
      ∃ t, exec (.tick d true) s = .next t ∧ t.txState = .waitingAck ∧ t.ackSeen = false) ∧
    (∀ t, s.rxState = .receiving → exec (.tick d a) s = .next t → t.rxState = .idle →
      d = false ∧ (t.rxEn = true → t.timeOk = true →
        ∃ u, exec (.tick true a) t = .next u ∧ u.rxState = .receiving ∧ u.rxTs = [t.now]))

/-- O50 (R80). For every state that meets the no-overflow premise: TICK d a answers the state after phases P1 to P4,
begun with the strobes 0 and no response, with NOW increased by 1. P1 does nothing where d = 0; P2 is ACK.CAPTURE
where a = 1 and nothing where a = 0. data_out is 1 only where P4 was TX.EMIT or TX.EMITLAST, ack_out only where the
window was open with the idle threshold passed and no pulse in the tick. P3 and P4 commute. That P3 and P4 commute
is the spec's own inference in R80 from the write sets of the rules; the rest is what R80 states. -/
def Obligations.TickPhases : Prop :=
  ∀ (s : State) (d a : Bool), s.timeOk = true →
    ∃ t, exec (.tick d a) s = .next t ∧
      t = { (((s.quiet.phaseCapture d).phaseAck a).phaseClose).phaseTx with now := s.now + 1 } ∧
      s.phaseCapture false = s ∧ s.phaseAck false = s ∧ exec .ackCapture s = .next (s.quiet.phaseAck true) ∧
      (t.dataOut = true → s.txOp = .emit ∨ s.txOp = .emitLast) ∧
      (t.ackOut = true → s.rxState = .receiving ∧ d = false ∧ s.rxTlast + s.cfgTidle.toNat < s.now) ∧
      s.phaseClose.phaseTx = s.phaseTx.phaseClose

/-- O51 (R304, R81). For every operation and state: where NOW + T_ACK + T_IDLE + FRAME_MAX_BITS*T + 2 < 2^TS_W the
operation answers a next state; where that fails, every operation but a tick, TX.EMITLAST and TX.RETX still does,
and a tick is refused with timeOverflow. So a step inside the premise always answers a next state. That host
accesses still run there is the model's reading (log 6). -/
def Obligations.OnlyTheTimePremiseStops : Prop :=
  ∀ (i : Instr) (s : State),
    (s.timeOk = true ↔ s.now + s.cfgTack.toNat + s.cfgTidle.toNat + s.build.frameMaxBits * s.cfgTslot.toNat + 2
      < 2 ^ s.build.tsW) ∧
    (s.timeOk = true ∨ (i ≠ .txEmitLast ∧ i ≠ .txRetx ∧ ∀ d a, i ≠ .tick d a) → ∃ t, exec i s = .next t) ∧
    (s.timeOk = false → ∀ d a, exec (.tick d a) s = .refused .timeOverflow) ∧
    (s.timeOk = true → ∃ t, step s = .next t)

/-- O52 (R23, R51). For every operation and state: the next state's NOW is the state's plus 1 for a tick, 0 for RESET,
and the state's for every other operation, SOFT_RESET included; the build-time parameters and the strap are the
same. -/
def Obligations.NowCountsTicks : Prop :=
  ∀ (i : Instr) (s t : State), exec i s = .next t →
    ((∃ d a, i = .tick d a) → t.now = s.now + 1) ∧
    (i = .reset → t.now = 0) ∧
    ((∀ d a, i ≠ .tick d a) → i ≠ .reset → t.now = s.now) ∧
    t.build = s.build

/-- O53 (R36, R85). For every operation other than RESET and every state that is not quiescent: the next state has the
same T, T_IDLE, T_ACK, MAX_RETRY, M, REANCHOR, PEER_ID and PEER_VALID. Quiescent is TX_STATE in {IDLE, FAILED},
RX_STATE = IDLE and RX_EN = 0. -/
def Obligations.ConfigurationIsLocked : Prop :=
  ∀ (i : Instr) (s t : State), exec i s = .next t → i ≠ .reset →
    ¬((s.txState = .idle ∨ s.txState = .failed) ∧ s.rxState = .idle ∧ s.rxEn = false) → sameConfig s t

/-- O54 (R80, R269, R315). For two states that agree on all that phases P1 and P3 read and write (memories canonical),
ticks with the same data_in and any ack_in, where both complete, leave states that agree on it again and drive the
same ack_out. For two states that agree on all that phases P2 and P4 read and write, ticks with the same ack_in and
any data_in leave states that agree on it again and drive the same data_out. -/
def Obligations.RolesDoNotInterfere : Prop :=
  (∀ (s u t v : State) (d a a' : Bool), sameReceiver s u → Memory.wf s.mem = true → Memory.wf u.mem = true →
    exec (.tick d a) s = .next t → exec (.tick d a') u = .next v → sameReceiver t v ∧ t.ackOut = v.ackOut) ∧
  (∀ (s u t v : State) (d d' a : Bool), sameSender s u →
    exec (.tick d a) s = .next t → exec (.tick d' a) u = .next v → sameSender t v ∧ t.dataOut = v.dataOut)

/-- O55 (R6, R52, R53). For every instance whose build-time parameters meet the constraints of R6, the state after RESET
meets the invariants of R53 as the model states them, rising stamps and a script of run operations; the default
parameters meet the constraints, and State.reset is that state for them. The second half of R53 (g) is not among the
invariants (log 19). -/
def Obligations.ResetMeetsInvariants : Prop :=
  (∀ b : Build, b.wf → (State.resetOf b).Inv ∧ (State.resetOf b).stampsRise ∧ (State.resetOf b).runScript) ∧
  Build.default.wf ∧ State.reset = State.resetOf Build.default

/-- O56 (R6, R36, R42, R47, R49, R53, R70). For every state that meets the invariants of R53 as the model states them
(legal parameters, times that fit, frame size and index in SENDING, the slot waited for not past, cfg_ok and
PEER_VALID while active or armed, the open window's stamps, ACK_SEEN only in WAITING_ACK, the retry bound, RX_LEN,
canonical memory holding only buffer bytes), whatever the next record of the script: where step answers a next
state, that state meets them too. -/
def Obligations.StepKeepsInvariants : Prop :=
  ∀ s t : State, s.Inv → step s = .next t → t.Inv

/-- O57 (R22, R49). For every state whose script holds only operations of a run and whose stamps rise strictly, none
after RX_TLAST, RX_TLAST before NOW while a window is open: where step answers a next state, the same holds of it. -/
def Obligations.StampsRise : Prop :=
  ∀ s t : State, s.runScript → s.stampsRise → step s = .next t → t.runScript ∧ t.stampsRise

/-- O58 (R24, R267). For every well-formed operation and state: where a flag is pending before and not after, the
operation is RESET or the command SOFT_RESET, or the command SEND, accepted, and the flag is TX_DONE or TX_FAIL, or
a write to FLAGS with a 1 at the flag's bit. -/
def Obligations.FlagsAreSticky : Prop :=
  ∀ (i : Instr) (s t : State) (f : Flag), i.wf = true → exec i s = .next t → s.hasFlag f = true →
    t.hasFlag f = false →
    i = .reset ∨ commandOf i = some 4 ∨
    (commandOf i = some 1 ∧ t.txState = .sending ∧ (f = .txDone ∨ f = .txFail)) ∨
    ∃ v : Word, i = .regWrFlags v ∧ v.getLsbD f.bit = true

/-- O59 (R240, R264, R271). For every operation and state: where the next state has another ERR_CODE, or CMD_ERR newly
pending, either the operation is RESET or the command SOFT_RESET and ERR_CODE is NONE afterwards, or the next state
is the state with CMD_ERR set, ERR_CODE a code other than NONE, ok = 1 and no strobe, and nothing else changed. -/
def Obligations.RejectionsArePrecise : Prop :=
  ∀ (i : Instr) (s t : State), exec i s = .next t →
    t.errCode ≠ s.errCode ∨ (s.hasFlag .cmdErr = false ∧ t.hasFlag .cmdErr = true) →
    ((i = .reset ∨ commandOf i = some 4) ∧ t.errCode = .none) ∨
    ∃ code : ErrCode, code ≠ .none ∧ t = s.afterReject code

/-- O60 (R101, R102, R103, R105, R108, R109, R110, R111, R112, R113, R114, R116). For every record: CMD 0 to 4 are the
five commands, every other value the rejected one; HDR takes bit 0 alone; 7E is a FLAG, 7D with a next byte other
than 7E a pair that yields that byte XOR 20, 7D before the closing FLAG answers EscapeError, any other byte is a
literal; a Raw Frame whose payload fits the largest instance is FRAME of that payload, any other bytes are FR.DECODE
of their bits, which answers Truncated for fewer than 4 body bytes and EscapeError where unescaping fails; the
events are themselves; a bus access decodes to the row of its register or buffer, and to BUS.ERROR outside width,
alignment and offsets; a TXV or RXV vector matches the bits of a row, and decodes to its operation; RXO goes by the
error, the empty payload, q, b in that order. What every format but RXO and FUNC decodes to is well formed; those
carry values that no encoding bounds. FUNC has no encoding. That bytes which are no Raw Frame are FR.DECODE, and
that an access takes the most specific row, are the model's reading (logs 2 and 14). -/
def Obligations.DecodedIsWellFormed : Prop :=
  (∀ r : Record, r.fmt ∈ [Format.frame, .wire, .hdr, .cmd, .evt, .bus, .txv, .rxv] → (decode r).wf = true) ∧
  -- CMD
  decode (.cmd 0) = .nop ∧ decode (.cmd 1) = .send ∧ decode (.cmd 2) = .rxEnable ∧ decode (.cmd 3) = .rxDisable ∧
  decode (.cmd 4) = .softReset ∧ (∀ v : Word, 4 < v.toNat → decode (.cmd v) = .cmdReserved v) ∧
  -- HDR
  (∀ b : Byte, decode (.hdr b) = .hdr (b.getLsbD 0)) ∧
  -- WIRE
  (∀ after, decode (.wire 0x7E after) = .wireFlag) ∧
  (∀ (b : Byte) after, b ≠ 0x7E → b ≠ 0x7D → decode (.wire b after) = .wireLit b) ∧
  (∀ (x : Byte) (s : State), x ≠ 0x7E → decode (.wire 0x7D (some x)) = .wireEsc x ∧
    exec (decode (.wire 0x7D (some x))) s = .next (s.answer (.bodyByte (x ^^^ 0x20#8)))) ∧
  (∀ after, after = none ∨ after = some 0x7E → ∀ s : State,
    exec (decode (.wire 0x7D after)) s = .next (s.answer (.verdict (.err .escapeError)))) ∧
  -- FRAME
  (∀ p : List Byte, p.length ≤ 1025 → decode (.frame (frEncode p)) = .frame p) ∧
  (∀ bytes : List Byte, (∀ p : List Byte, p.length ≤ 1025 → frEncode p ≠ bytes) →
    decode (.frame bytes) = .frDecode (bitsOf bytes) 1029) ∧
  (∀ (raw : List Byte) (s : State), 0x7E#8 ∉ raw → frUnescape raw = .err .escapeError →
    exec (decode (.frame (0x7E :: raw ++ [0x7E]))) s = .next (s.answer (.verdict (.err .escapeError)))) ∧
  (∀ (raw body : List Byte) (s : State), 0x7E#8 ∉ raw → frUnescape raw = .ok body → body.length < 4 →
    exec (decode (.frame (0x7E :: raw ++ [0x7E]))) s = .next (s.answer (.verdict (.err .truncated)))) ∧
  -- EVT
  (∀ d a, decode (.tick d a) = .tick d a) ∧ decode .reset = .reset ∧ decode .ackStrobe = .ackCapture ∧
  -- BUS
  (∀ a : Access,
    (match a.space, a.op with
      | .reg, _ => a.width = 4 ∧ a.addr % 4 = 0 ∧ a.addr ≤ 0x48
      | .txbuf, _ => a.width = 1
      | .rxbuf, .rd => a.width = 1
      | .rxbuf, .wr _ => False) ∨ decode (.bus a) = .busError a) ∧
  (∀ off, off % 4 = 0 → off ≤ 0x48 → decode (.bus ⟨.rd, .reg, off, 4⟩) = .regRd off) ∧
  (∀ v, decode (.bus ⟨.wr v, .reg, 0x04, 4⟩) = .regWrFlags v ∧ decode (.bus ⟨.wr v, .reg, 0x08, 4⟩) = .regWrIrqEn v ∧
    decode (.bus ⟨.wr v, .reg, 0x10, 4⟩) = .regWrCfgMode v ∧ decode (.bus ⟨.wr v, .reg, 0x14, 4⟩) = .regWrCfgTslot v ∧
    decode (.bus ⟨.wr v, .reg, 0x18, 4⟩) = .regWrCfgTidle v ∧ decode (.bus ⟨.wr v, .reg, 0x1C, 4⟩) = .regWrCfgTack v ∧
    decode (.bus ⟨.wr v, .reg, 0x20, 4⟩) = .regWrCfgMaxRetry v ∧
    decode (.bus ⟨.wr v, .reg, 0x24, 4⟩) = .regWrCfgAmbig v ∧ decode (.bus ⟨.wr v, .reg, 0x2C, 4⟩) = .regWrPeerId v ∧
    decode (.bus ⟨.wr v, .reg, 0x30, 4⟩) = .regWrTxLen v ∧
    ∀ off ∈ [0x00, 0x0C, 0x28, 0x34, 0x38, 0x3C, 0x40, 0x44, 0x48],
      decode (.bus ⟨.wr v, .reg, off, 4⟩) = .regWr off v) ∧
  (∀ a v, decode (.bus ⟨.rd, .txbuf, a, 1⟩) = .bufRd .txbuf a ∧ decode (.bus ⟨.rd, .rxbuf, a, 1⟩) = .bufRd .rxbuf a ∧
    decode (.bus ⟨.wr v, .txbuf, a, 1⟩) = .bufWr a (v.extractLsb' 0 8)) ∧
  -- TXV
  (∀ v : BitVec 7, ∃ row ∈ ([(0b11100000, 0b00000000, .txHoldIdle), (0b11100000, 0b01100000, .txHoldFailed),
      (0b11110000, 0b00100000, .txWaitSlot), (0b11111000, 0b00110000, .txEmit), (0b11111000, 0b00111000, .txEmitLast),
      (0b11100100, 0b01000100, .txAcked), (0b11100110, 0b01000000, .txWait), (0b11100111, 0b01000010, .txRetx),
      (0b11100111, 0b01000011, .txFail)] : List (BitVec 8 × BitVec 8 × Instr)),
    rowMatches row.1 row.2.1 (v.zeroExtend 8) ∧ decode (.txv v) = row.2.2) ∧
  -- RXV, phase P1, where d = 1
  (∀ r e i : Bool, ∃ row ∈ ([(0b1110, 0b0010, .rxIgnore), (0b1110, 0b0110, .rxStart),
      (0b1010, 0b1010, .rxCapture)] : List (BitVec 4 × BitVec 4 × Instr)),
    rowMatches row.1 row.2.1 (BitVec.ofBool r ++ BitVec.ofBool e ++ 1#1 ++ BitVec.ofBool i) ∧
    decode (.rxvP1 r e i) = row.2.2) ∧
  -- RXV, phase P3
  (∀ w : OpenVector, ∃ row ∈ ([(0b1110, 0b0110, .rxWaitStart), (0b1010, 0b1010, .rxWaitCapture),
      (0b1011, 0b1000, .rxWaitQuiet), (0b1011, 0b1001, .rxClose)] : List (BitVec 4 × BitVec 4 × Instr)),
    rowMatches row.1 row.2.1 (match w with
      | .opened i => 0b011#3 ++ BitVec.ofBool i
      | .wasOpen e d i => 1#1 ++ BitVec.ofBool e ++ BitVec.ofBool d ++ BitVec.ofBool i) ∧
    decode (.rxvP3 w) = row.2.2) ∧
  -- RXO
  (∀ (e : FrameError) (h : Byte) (m : List Byte) (q b : Bool),
    decode (.rxo (.err e) q b) = .rxDropErr e ∧ decode (.rxo (.ok []) q b) = .rxDropHdr ∧
    decode (.rxo (.ok (h :: m)) true b) = .rxDup (h.getLsbD 0) ∧
    decode (.rxo (.ok (h :: m)) false true) = .rxBusy (h.getLsbD 0) ∧
    decode (.rxo (.ok (h :: m)) false false) = .rxDeliver (h.getLsbD 0) m)

end Slice0Statements
end

