-- ==== Sys2Proof/Laws/BitTiming.lean ====
section
/-! SUPPORT. Small laws of the bit timing codec: the indices of the 1 bits, the pulses of a schedule, and what `ASSEMBLE`
makes of such indices. -/

namespace Sys2Proof.Machine

theorem foldl_max_spec (l : List Nat) (k : Nat) :
    (∀ x ∈ k :: l, x ≤ l.foldl max k) ∧ l.foldl max k ∈ k :: l := by
  induction l generalizing k with
  | nil => simp
  | cons y l ih =>
    obtain ⟨h1, h2⟩ := ih (max k y)
    simp only [List.foldl_cons]
    constructor
    · intro x hx
      have hm := h1 _ (List.mem_cons_self ..)
      simp only [List.mem_cons] at hx
      rcases hx with rfl | rfl | hx
      · exact le_trans (le_max_left _ _) hm
      · exact le_trans (le_max_right _ _) hm
      · exact h1 _ (List.mem_cons_of_mem _ hx)
    · simp only [List.mem_cons] at h2 ⊢
      rcases h2 with h2 | h2
      · rw [h2]
        rcases le_total k y with h | h
        · rw [max_eq_right h]; simp
        · rw [max_eq_left h]; simp
      · exact .inr (.inr h2)

theorem mem_oneIndices {bits : List Bool} {j : Nat} : j ∈ oneIndices bits ↔ bits[j]? = some true := by
  simp only [oneIndices, List.mem_filter, List.mem_range]
  constructor
  · rintro ⟨h1, h2⟩
    rw [List.getElem?_eq_getElem h1] at h2 ⊢
    simpa using h2
  · intro h
    rw [h]
    refine ⟨?_, rfl⟩
    by_contra hn
    rw [List.getElem?_eq_none (by omega)] at h; cases h

theorem pairwise_oneIndices (bits : List Bool) : (oneIndices bits).Pairwise (· < ·) :=
  List.Pairwise.filter _ List.pairwise_lt_range

theorem oneIndices_cons (b : Bool) (bs : List Bool) :
    oneIndices (b :: bs) = (if b then [0] else []) ++ (oneIndices bs).map (· + 1) := by
  simp only [oneIndices, List.length_cons, List.range_succ_eq_map, List.filter_cons, List.filter_map]
  cases b <;> simp <;> rfl

/-- The pulses of a schedule stand at the slots of the 1 bits. -/
theorem pulseTimes_eq (bits : List Bool) (t0 T : Nat) :
    pulseTimes bits t0 T = (oneIndices bits).map (fun k => t0 + k * T) := by
  induction bits generalizing t0 with
  | nil => rfl
  | cons b bs ih =>
    have := ih (t0 + T)
    simp only [pulseTimes] at this
    rw [oneIndices_cons]
    simp only [pulseTimes, btEncode, List.filterMap_cons]
    cases b
    · simp only [Bool.false_eq_true, if_false, this, List.nil_append, List.map_map]
      apply List.map_congr_left; intro k _; simp; ring
    · simp only [if_true, this, List.map_map, List.map_cons, List.cons_append, List.nil_append, Nat.zero_mul,
        Nat.add_zero]
      congr 1
      apply List.map_congr_left; intro k _; simp; ring

/-- `ASSEMBLE` of the indices of the 1 bits gives the bits up to the last of them and one 0 (40_bit_timing.md R137). -/
theorem assemble_oneIndices {bits : List Bool} {p W : Nat} (hp : isLastOne bits p) (hW : p + 2 ≤ W) :
    assemble (oneIndices bits) W = (bits.take (p + 1) ++ [false], false) := by
  have hle : ∀ k ∈ oneIndices bits, k ≤ p := by
    intro k hk
    by_contra hn
    exact hp.2 k (by omega) (mem_oneIndices.mp hk)
  have hf : (oneIndices bits).filter (fun k => decide (k + 2 ≤ W)) = oneIndices bits := by
    rw [List.filter_eq_self]
    intro k hk; have := hle k hk; simp; omega
  have ho : (oneIndices bits).any (fun k => decide (W < k + 2)) = false := by
    rw [List.any_eq_false]
    intro k hk; have := hle k hk; simp; omega
  have hpm := mem_oneIndices.mpr hp.1
  have hpl : p < bits.length := by
    by_contra hn; have := hp.1; rw [List.getElem?_eq_none (by omega)] at this; cases this
  simp only [assemble, hf, ho]
  cases he : oneIndices bits with
  | nil => rw [he] at hpm; cases hpm
  | cons k rest =>
    dsimp only
    obtain ⟨h1, h2⟩ := foldl_max_spec rest k
    rw [← he] at h1 h2 ⊢
    have hm : rest.foldl max k = p := le_antisymm (hle _ h2) (h1 p hpm)
    rw [hm]
    congr 1
    apply List.ext_getElem?
    intro j
    by_cases hj : j < p + 2
    · rw [List.getElem?_map, List.getElem?_range hj]
      by_cases hj2 : j < p + 1
      · rw [List.getElem?_append_left (by simp; omega), List.getElem?_take_of_lt hj2,
          List.getElem?_eq_getElem (by omega)]
        simp only [Option.map_some, Option.some.injEq]
        rw [Bool.eq_iff_iff, List.contains_iff_mem, mem_oneIndices, List.getElem?_eq_getElem (by omega)]
        simp
      · have hje : j = p + 1 := by omega
        subst hje
        have hz : p + 1 - (List.take (p + 1) bits).length = 0 := by simp; omega
        rw [List.getElem?_append_right (by simp), hz]
        simp only [Option.map_some, List.getElem?_cons_zero, Option.some.injEq]
        rw [Bool.eq_false_iff, ne_eq, List.contains_iff_mem]
        intro h; have := hle _ h; omega
    · rw [List.getElem?_eq_none (by simp; omega), List.getElem?_eq_none (by simp; omega)]

end Sys2Proof.Machine
end

