-- ==== Sys2Proof/Laws/FrameCodec.lean ====
section
/-! SUPPORT. Small laws of the frame codec: lengths, what a verdict `Ok` says of the payload's length, bits and bytes, one
step of unescaping and of the search for FLAG, and the injectivity of the CRC steps. -/

namespace Sys2Proof.Machine

@[simp] theorem length_bytesLE (c : Word) : (bytesLE c).length = 4 := rfl

@[simp] theorem length_crc32le (p : List Byte) : (crc32le p).length = 4 := rfl

theorem length_le_frEscape (B : List Byte) : B.length ≤ (frEscape B).length := by
  induction B with
  | nil => simp
  | cons b B ih =>
    simp only [frEscape]
    split <;> simp only [List.length_cons] <;> omega

theorem length_frEscape_le (B : List Byte) : (frEscape B).length ≤ 2 * B.length := by
  induction B with
  | nil => simp [frEscape]
  | cons b B ih =>
    simp only [frEscape]
    split <;> simp only [List.length_cons] <;> omega

theorem length_frEncode (p : List Byte) : (frEncode p).length = (frEscape (p ++ crc32le p)).length + 2 := by
  simp [frEncode]

theorem frCheck_ok {bodyMax : Nat} {body p : List Byte} (h : frCheck bodyMax body = .ok p) :
    body.length ≤ bodyMax ∧ 4 ≤ body.length ∧ p = body.take (body.length - 4) ∧
    body.drop (body.length - 4) = crc32le p := by
  simp only [frCheck] at h
  split at h
  · cases h
  · split at h
    · cases h
    · split at h
      · cases h
      · rename_i h1 h2 h3
        injection h with h
        exact ⟨by omega, by omega, h.symm, by rw [← h]; exact not_not.mp h3⟩

theorem frDecodeRaw_ok {bodyMax : Nat} {bytes p : List Byte} (h : frDecodeRaw bodyMax bytes = .ok p) :
    ∃ raw body, untilFlag bytes = some raw ∧ frUnescape raw = .ok body ∧ frCheck bodyMax body = .ok p := by
  simp only [frDecodeRaw] at h
  split at h
  · cases h
  · rename_i raw hr
    split at h
    · cases h
    · rename_i body hb
      exact ⟨raw, body, hr, hb, h⟩

/-- The payload of a verdict `Ok` leaves room for the CRC inside the body bound (41_frame_codec.md R160). -/
theorem frDecode_length {bits : List Bool} {bodyMax : Nat} {p : List Byte} (h : frDecode bits bodyMax = .ok p) :
    p.length + 4 ≤ bodyMax := by
  simp only [frDecode] at h
  split at h
  · cases h
  · obtain ⟨raw, body, -, -, hc⟩ := frDecodeRaw_ok h
    obtain ⟨h1, h2, h3, -⟩ := frCheck_ok hc
    rw [h3, List.length_take]
    omega

/-! Bits and bytes. -/

theorem byteOfBits_byteBits (b : Byte) :
    byteOfBits (b.getLsbD 7) (b.getLsbD 6) (b.getLsbD 5) (b.getLsbD 4) (b.getLsbD 3) (b.getLsbD 2) (b.getLsbD 1)
      (b.getLsbD 0) = b := by
  revert b; decide +kernel

theorem bytesOf_byteBits (b : Byte) (rest : List Bool) : bytesOf (byteBits b ++ rest) = b :: bytesOf rest := by
  simp only [byteBits, List.cons_append, List.nil_append, bytesOf, byteOfBits_byteBits]

theorem bitsOf_cons (b : Byte) (bs : List Byte) : bitsOf (b :: bs) = byteBits b ++ bitsOf bs := rfl

theorem bitsOf_append (a b : List Byte) : bitsOf (a ++ b) = bitsOf a ++ bitsOf b := by simp [bitsOf]

theorem bytesOf_bitsOf_append (bs : List Byte) (rest : List Bool) :
    bytesOf (bitsOf bs ++ rest) = bs ++ bytesOf rest := by
  induction bs with
  | nil => rfl
  | cons b bs ih => rw [bitsOf_cons, List.append_assoc, bytesOf_byteBits, ih]; rfl

/-- Bit `i` in wire order of eight bits is bit `7 - i` of their byte. -/
theorem getElem?_byteOfBits (b7 b6 b5 b4 b3 b2 b1 b0 : Bool) {i : Nat} (hi : i < 8) :
    [b7, b6, b5, b4, b3, b2, b1, b0][i]? = some ((byteOfBits b7 b6 b5 b4 b3 b2 b1 b0).getLsbD (7 - i)) := by
  interval_cases i <;> (revert b7 b6 b5 b4 b3 b2 b1 b0; decide +kernel)

/-! Unescaping, one pair or literal at a time. -/

theorem frUnescape_literal {b : Byte} (h : b ≠ escByte) (rest : List Byte) :
    frUnescape (b :: rest) = pushByte b (frUnescape rest) := by
  cases rest with
  | nil => simp [frUnescape, h, pushByte]
  | cons c r => simp [frUnescape, h]

theorem frUnescape_pair (c : Byte) (rest : List Byte) :
    frUnescape (escByte :: c :: rest) = pushByte (c ^^^ maskByte) (frUnescape rest) := by
  simp [frUnescape]

theorem xor_mask_twice (b : Byte) : b ^^^ maskByte ^^^ maskByte = b := by
  rw [BitVec.xor_assoc, BitVec.xor_self, BitVec.xor_zero]

theorem frEscape_append (a b : List Byte) : frEscape (a ++ b) = frEscape a ++ frEscape b := by
  induction a with
  | nil => rfl
  | cons x a ih => simp only [List.cons_append, frEscape]; split <;> simp [ih]

/-! The search for FLAG. -/

/-- A FLAG at the front is found there; one that is not is sought behind it. -/
theorem afterFlag_cons (b : Bool) (bs : List Bool) :
    (flagBits <+: b :: bs → afterFlag (b :: bs) = some ((b :: bs).drop 8)) ∧
    (¬ flagBits <+: b :: bs → afterFlag (b :: bs) = afterFlag bs) := by
  constructor <;> intro h <;> rw [afterFlag]
  · rw [if_pos (by rw [List.isPrefixOf_iff_prefix]; exact h)]
  · rw [if_neg (by rw [List.isPrefixOf_iff_prefix]; exact h)]

theorem untilFlag_append {raw tail : List Byte} (h : flagByte ∉ raw) :
    untilFlag (raw ++ flagByte :: tail) = some raw := by
  induction raw with
  | nil => simp [untilFlag]
  | cons b raw ih =>
    simp only [List.mem_cons, not_or] at h
    simp only [List.cons_append, untilFlag, if_neg (Ne.symm h.1), ih h.2, Option.map_some]

theorem untilFlag_none {bs : List Byte} (h : flagByte ∉ bs) : untilFlag bs = none := by
  induction bs with
  | nil => rfl
  | cons b bs ih =>
    simp only [List.mem_cons, not_or] at h
    simp only [untilFlag, if_neg (Ne.symm h.1), ih h.2, Option.map_none]

/-! The CRC register keeps every difference: its steps are injective. -/

theorem crcBit_top (c : Word) : (crcBit c).getLsbD 31 = c.getLsbD 0 := by
  simp only [crcBit]
  split
  · rename_i h
    rw [h, BitVec.getLsbD_xor, BitVec.getLsbD_ushiftRight]
    rw [BitVec.getLsbD_of_ge c (1 + 31) (by omega)]; rfl
  · rename_i h
    rw [BitVec.getLsbD_ushiftRight, BitVec.getLsbD_of_ge c (1 + 31) (by omega)]; simpa using h

theorem crcBit_injective {c d : Word} (h : crcBit c = crcBit d) : c = d := by
  have h0 : c.getLsbD 0 = d.getLsbD 0 := by rw [← crcBit_top, h, crcBit_top]
  have h1 : c >>> 1 = d >>> 1 := by
    simp only [crcBit, h0] at h
    split at h
    · exact (BitVec.xor_left_inj _).mp h
    · exact h
  apply BitVec.eq_of_getLsbD_eq
  intro i hi
  cases i with
  | zero => exact h0
  | succ i =>
    have := congrArg (BitVec.getLsbD · i) h1
    simp only [BitVec.getLsbD_ushiftRight] at this
    rwa [Nat.add_comm] at this

theorem crcByte_injective_left {c d : Word} {b : Byte} (h : crcByte c b = crcByte d b) : c = d := by
  simp only [crcByte] at h
  have := crcBit_injective (crcBit_injective (crcBit_injective (crcBit_injective (crcBit_injective
    (crcBit_injective (crcBit_injective (crcBit_injective h)))))))
  exact (BitVec.xor_left_inj _).mp this

theorem crcByte_injective_right {c : Word} {a b : Byte} (h : crcByte c a = crcByte c b) : a = b := by
  simp only [crcByte] at h
  have := crcBit_injective (crcBit_injective (crcBit_injective (crcBit_injective (crcBit_injective
    (crcBit_injective (crcBit_injective (crcBit_injective h)))))))
  have := (BitVec.xor_right_inj _).mp this
  apply BitVec.eq_of_getLsbD_eq
  intro i hi
  have := congrArg (BitVec.getLsbD · i) this
  simpa [show i < 32 by omega] using this

theorem bytesLE_injective {c d : Word} (h : bytesLE c = bytesLE d) : c = d := by
  simp only [bytesLE, List.cons.injEq, and_true] at h
  obtain ⟨h0, h1, h2, h3⟩ := h
  apply BitVec.eq_of_getLsbD_eq
  intro i hi
  have g : ∀ k : Nat, c.extractLsb' k 8 = d.extractLsb' k 8 → k ≤ i → i < k + 8 → c.getLsbD i = d.getLsbD i := by
    intro k hk h1 h2
    have := congrArg (BitVec.getLsbD · (i - k)) hk
    simp only [BitVec.getLsbD_extractLsb'] at this
    rw [show k + (i - k) = i by omega] at this
    simpa [show i - k < 8 by omega] using this
  by_cases a0 : i < 8
  · exact g 0 h0 (by omega) (by omega)
  by_cases a1 : i < 16
  · exact g 8 h1 (by omega) (by omega)
  by_cases a2 : i < 24
  · exact g 16 h2 (by omega) (by omega)
  · exact g 24 h3 (by omega) (by omega)

end Sys2Proof.Machine
end

