-- ==== Sys2Proof/Laws/Decode.lean ====
section
/-! SUPPORT. The pieces of the decoder on the pieces that the encoder writes. -/

namespace Sys2Proof

/-- A register write goes on the bus whole. -/
theorem decode_regWrRecord (off : Nat) (v : Word) : decode (regWrRecord off v)
    = ({ op := .wr v, space := .reg, addr := off, width := 4 } : Access).toInstr := rfl

/-- A byte written to a buffer is the low byte of the value on the bus. -/
theorem truncate_zeroExtend_byte (b : Byte) : (b.zeroExtend 32).truncate 8 = b := by ext i; simp

/-- Bytes that are read as a Raw Frame are the encoding of its payload, which fits the largest instance. -/
theorem framePayload_eq_some {bytes p : List Byte} (h : framePayload bytes = some p) :
    Machine.frEncode p = bytes ∧ p.length ≤ payloadLimit + 1 := by
  unfold framePayload at h
  split at h
  · cases h
  · rename_i q hq
    split at h <;> cases h
    rename_i he
    obtain ⟨raw, body, -, -, hc⟩ := Machine.frDecodeRaw_ok hq
    obtain ⟨h1, -, h3, -⟩ := Machine.frCheck_ok hc
    exact ⟨he, by rw [h3, List.length_take]; omega⟩

/-- An access that no row but `BUS.ERROR` stands for decodes to it, whatever its width and value. -/
theorem toInstr_of_not_legal {a : Access} (h : a.legal = false) : a.toInstr = .busError a := by
  obtain ⟨op, sp, ad, w⟩ := a
  cases op <;> cases sp <;> simp only [Access.toInstr, h] <;> rfl

/-- A register access of another width than 4 is no legal one. -/
theorem legal_reg_width {op : BusOp} {ad w : Nat} (h : w ≠ 4) :
    ({ op := op, space := .reg, addr := ad, width := w } : Access).legal = false := by
  simp [Access.legal, h]

end Sys2Proof
end

