-- ==== Sys2Proof/Laws/Memory.lean ====
section
/-! SUPPORT. The laws of the memory: what a read gives after a write, and that every write keeps the canonical form. -/

namespace Sys2Proof.Machine

/-- A canonical memory above an address is canonical above every lower one. -/
theorem Memory.wfAbove_mono {m : Memory} {lo lo' : Nat} (h : lo ≤ lo') (hm : Memory.wfAbove lo' m = true) :
    Memory.wfAbove lo m = true := by
  cases m with
  | nil => rfl
  | cons c m =>
    obtain ⟨k, b⟩ := c
    simp only [Memory.wfAbove, Bool.and_eq_true, decide_eq_true_eq] at hm ⊢
    exact ⟨⟨by omega, hm.1.2⟩, hm.2⟩

/-- An address below a canonical memory reads as the unlisted byte. -/
theorem Memory.read_below {m : Memory} {lo a : Nat} (hm : Memory.wfAbove lo m = true) (h : a < lo) :
    Memory.read m a = unlistedByte := by
  induction m generalizing lo with
  | nil => rfl
  | cons c m ih =>
    obtain ⟨k, b⟩ := c
    simp only [Memory.wfAbove, Bool.and_eq_true, decide_eq_true_eq] at hm
    rw [Memory.read, if_neg (by omega)]
    exact ih hm.2 (by omega)

/-- A write leaves every other address as it was. -/
theorem Memory.read_write_other {m : Memory} {a x : Nat} {v : Byte} (h : x ≠ a) :
    Memory.read (Memory.write m a v) x = Memory.read m x := by
  induction m with
  | nil => by_cases hv : v = unlistedByte <;> simp [Memory.write, Memory.read, hv, Ne.symm h]
  | cons c m ih =>
    obtain ⟨k, b⟩ := c
    simp only [Memory.write]
    split
    · split <;> simp [Memory.read, Ne.symm h]
    · split
      · subst_vars
        split <;> simp [Memory.read, Ne.symm h]
      · simp only [Memory.read, ih]

/-- A canonical memory reads at an address what was written there. -/
theorem Memory.read_write_same {m : Memory} {a : Nat} {v : Byte} (hm : Memory.wf m = true) :
    Memory.read (Memory.write m a v) a = v := by
  suffices h : ∀ lo, Memory.wfAbove lo m = true → Memory.read (Memory.write m a v) a = v from h 0 hm
  clear hm
  induction m with
  | nil => intro lo _; by_cases hv : v = unlistedByte <;> simp [Memory.write, Memory.read, hv]
  | cons c m ih =>
    obtain ⟨k, b⟩ := c
    intro lo hm
    have hm' := hm
    simp only [Memory.wfAbove, Bool.and_eq_true, decide_eq_true_eq] at hm'
    simp only [Memory.write]
    split
    · split
      · rw [Memory.read, if_neg (by omega), Memory.read_below hm'.2 (by omega)]; symm; assumption
      · simp [Memory.read]
    · split
      · subst_vars
        split
        · rw [Memory.read_below hm'.2 (by omega)]; symm; assumption
        · simp [Memory.read]
      · rw [Memory.read, if_neg (by omega)]
        exact ih _ hm'.2

/-- A write keeps the canonical form above a bound that the address meets. -/
theorem Memory.wfAbove_write {m : Memory} {lo a : Nat} {v : Byte} (hm : Memory.wfAbove lo m = true) (h : lo ≤ a) :
    Memory.wfAbove lo (Memory.write m a v) = true := by
  induction m generalizing lo with
  | nil => by_cases hv : v = unlistedByte <;> simp [Memory.write, Memory.wfAbove, hv, h]
  | cons c m ih =>
    obtain ⟨k, b⟩ := c
    have hm' := hm
    simp only [Memory.wfAbove, Bool.and_eq_true, decide_eq_true_eq] at hm'
    simp only [Memory.write]
    split
    · split
      · exact hm
      · simp only [Memory.wfAbove, Bool.and_eq_true, decide_eq_true_eq]
        exact ⟨⟨h, by simpa⟩, ⟨by omega, hm'.1.2⟩, hm'.2⟩
    · split
      · subst_vars
        split
        · exact Memory.wfAbove_mono (by omega) hm'.2
        · simp only [Memory.wfAbove, Bool.and_eq_true, decide_eq_true_eq]
          exact ⟨⟨h, by simpa⟩, hm'.2⟩
      · simp only [Memory.wfAbove, Bool.and_eq_true, decide_eq_true_eq]
        exact ⟨hm'.1, ih hm'.2 (by omega)⟩

/-- A write keeps the canonical form. -/
theorem Memory.wf_write {m : Memory} {a : Nat} {v : Byte} (hm : Memory.wf m = true) :
    Memory.wf (Memory.write m a v) = true := Memory.wfAbove_write hm (Nat.zero_le a)

/-- A write of a sequence keeps the canonical form. -/
theorem Memory.wf_writeBytes {m : Memory} {a : Nat} {bs : List Byte} (hm : Memory.wf m = true) :
    Memory.wf (Memory.writeBytes m a bs) = true := by
  induction bs generalizing m a with
  | nil => exact hm
  | cons b bs ih => exact ih (Memory.wf_write hm)

/-- A write of a sequence leaves every address outside it as it was. -/
theorem Memory.read_writeBytes_other {m : Memory} {a x : Nat} {bs : List Byte} (h : x < a ∨ a + bs.length ≤ x) :
    Memory.read (Memory.writeBytes m a bs) x = Memory.read m x := by
  induction bs generalizing m a with
  | nil => rfl
  | cons b bs ih =>
    rw [List.length_cons] at h
    rw [Memory.writeBytes, ih (by omega), Memory.read_write_other (by omega)]

/-- A canonical memory reads inside a sequence what was written there. -/
theorem Memory.read_writeBytes_same {m : Memory} {a i : Nat} {bs : List Byte} (hm : Memory.wf m = true)
    (h : i < bs.length) : Memory.read (Memory.writeBytes m a bs) (a + i) = bs[i] := by
  induction bs generalizing m a i with
  | nil => simp at h
  | cons b bs ih =>
    rw [Memory.writeBytes]
    cases i with
    | zero => rw [Memory.read_writeBytes_other (by omega)]; exact Memory.read_write_same hm
    | succ i =>
      have := ih (m := Memory.write m a b) (a := a + 1) (i := i) (Memory.wf_write hm) (by simpa using h)
      rw [show a + (i + 1) = a + 1 + i by omega, this]; rfl

/-- Every entry after a write was there before, or is the entry written. -/
theorem Memory.mem_write {m : Memory} {a : Nat} {v : Byte} {c : Host.Cell} (h : c ∈ Memory.write m a v) :
    c ∈ m ∨ c = (a, v) := by
  induction m with
  | nil => by_cases hv : v = unlistedByte <;> simp_all [Memory.write]
  | cons d m ih =>
    obtain ⟨k, b⟩ := d
    simp only [Memory.write] at h
    split at h
    · split at h <;> simp_all <;> tauto
    · split at h
      · split at h
        · exact .inl (List.mem_cons_of_mem _ h)
        · rcases List.mem_cons.mp h with h | h
          · exact .inr h
          · exact .inl (List.mem_cons_of_mem _ h)
      · rcases List.mem_cons.mp h with h | h
        · exact .inl (h ▸ List.mem_cons_self)
        · rcases ih h with h | h
          · exact .inl (List.mem_cons_of_mem _ h)
          · exact .inr h

/-- Every entry after a write of a sequence was there before, or lies in the sequence. -/
theorem Memory.mem_writeBytes {m : Memory} {a : Nat} {bs : List Byte} {c : Host.Cell}
    (h : c ∈ Memory.writeBytes m a bs) : c ∈ m ∨ (a ≤ c.1 ∧ c.1 < a + bs.length) := by
  induction bs generalizing m a with
  | nil => exact .inl h
  | cons b bs ih =>
    rcases ih h with h | h
    · rcases Memory.mem_write h with h | h
      · exact .inl h
      · exact .inr (by rw [h, List.length_cons]; dsimp; omega)
    · exact .inr (by rw [List.length_cons]; omega)

/-- Canonical memories that read alike everywhere are equal. -/
theorem Memory.eq_of_read_eq {m n : Memory} (hm : Memory.wf m = true) (hn : Memory.wf n = true)
    (h : ∀ a, Memory.read m a = Memory.read n a) : m = n := by
  suffices H : ∀ lo, Memory.wfAbove lo m = true → Memory.wfAbove lo n = true → m = n from H 0 hm hn
  clear hm hn
  induction m generalizing n with
  | nil =>
    intro lo _ hn
    cases n with
    | nil => rfl
    | cons d n =>
      obtain ⟨k, b⟩ := d
      simp only [Memory.wfAbove, Bool.and_eq_true, bne_iff_ne] at hn
      have := h k
      simp only [Memory.read, if_true] at this
      exact absurd this.symm hn.1.2
  | cons c m ih =>
    obtain ⟨k, b⟩ := c
    intro lo hm hn
    simp only [Memory.wfAbove, Bool.and_eq_true, bne_iff_ne, decide_eq_true_eq] at hm
    cases n with
    | nil =>
      have := h k
      simp only [Memory.read, if_true] at this
      exact absurd this hm.1.2
    | cons d n =>
      obtain ⟨l, e⟩ := d
      simp only [Memory.wfAbove, Bool.and_eq_true, bne_iff_ne, decide_eq_true_eq] at hn
      rcases Nat.lt_trichotomy k l with hkl | hkl | hkl
      · have := h k
        rw [Memory.read, if_pos rfl, Memory.read, if_neg (by omega), Memory.read_below hn.2 (by omega)] at this
        exact absurd this hm.1.2
      · subst hkl
        have hb := h k
        simp only [Memory.read, if_true] at hb
        subst hb
        congr 1
        refine ih (fun a => ?_) (k + 1) hm.2 hn.2
        rcases Nat.lt_or_ge a (k + 1) with ha | ha
        · rw [Memory.read_below hm.2 ha, Memory.read_below hn.2 ha]
        · have := h a
          rwa [Memory.read, if_neg (by omega), Memory.read, if_neg (by omega)] at this
      · have := h l
        rw [Memory.read, if_neg (by omega), Memory.read_below hm.2 (by omega), Memory.read, if_pos rfl] at this
        exact absurd this.symm hn.1.2

/-- The length of a read of a sequence. -/
@[simp] theorem Memory.length_readBytes (m : Memory) (a n : Nat) : (Memory.readBytes m a n).length = n := by
  induction n generalizing a with
  | zero => rfl
  | succ n ih => rw [Memory.readBytes, List.length_cons, ih]

/-- The bytes of a read of a sequence. -/
theorem Memory.getElem_readBytes (m : Memory) {a n i : Nat} (h : i < (Memory.readBytes m a n).length) :
    (Memory.readBytes m a n)[i] = Memory.read m (a + i) := by
  induction n generalizing a i with
  | zero => simp at h
  | succ n ih =>
    cases i with
    | zero => rfl
    | succ i =>
      simp only [Memory.readBytes, List.getElem_cons_succ]
      rw [ih, show a + 1 + i = a + (i + 1) by omega]

/-- The memory after reset is canonical. -/
theorem reset_mem_wf : Memory.wf State.reset.mem = true := by decide

end Sys2Proof.Machine
end

