-- ==== Sys2Proof/Laws/State.lean ====
section
/-! SUPPORT. One lemma per field per named update of the state: `answer`, `quiet`, `setFlag`, `clearFlags`, `emitAck`
and `raise`. Later proofs cite these (simp) and never unfold a record update. -/

namespace Sys2Proof.Machine

/-! `State.answer`. -/

@[simp] theorem State.answer_build (s : State) (r : Response) : (s.answer r).build = s.build := rfl
@[simp] theorem State.answer_now (s : State) (r : Response) : (s.answer r).now = s.now := rfl
@[simp] theorem State.answer_nowHiShadow (s : State) (r : Response) : (s.answer r).nowHiShadow = s.nowHiShadow := rfl
@[simp] theorem State.answer_flags (s : State) (r : Response) : (s.answer r).flags = s.flags := rfl
@[simp] theorem State.answer_irqEn (s : State) (r : Response) : (s.answer r).irqEn = s.irqEn := rfl
@[simp] theorem State.answer_errCode (s : State) (r : Response) : (s.answer r).errCode = s.errCode := rfl
@[simp] theorem State.answer_reanchor (s : State) (r : Response) : (s.answer r).reanchor = s.reanchor := rfl
@[simp] theorem State.answer_cfgTslot (s : State) (r : Response) : (s.answer r).cfgTslot = s.cfgTslot := rfl
@[simp] theorem State.answer_cfgTidle (s : State) (r : Response) : (s.answer r).cfgTidle = s.cfgTidle := rfl
@[simp] theorem State.answer_cfgTack (s : State) (r : Response) : (s.answer r).cfgTack = s.cfgTack := rfl
@[simp] theorem State.answer_cfgMaxRetry (s : State) (r : Response) : (s.answer r).cfgMaxRetry = s.cfgMaxRetry := rfl
@[simp] theorem State.answer_cfgAmbig (s : State) (r : Response) : (s.answer r).cfgAmbig = s.cfgAmbig := rfl
@[simp] theorem State.answer_peerId (s : State) (r : Response) : (s.answer r).peerId = s.peerId := rfl
@[simp] theorem State.answer_peerValid (s : State) (r : Response) : (s.answer r).peerValid = s.peerValid := rfl
@[simp] theorem State.answer_txLen (s : State) (r : Response) : (s.answer r).txLen = s.txLen := rfl
@[simp] theorem State.answer_mem (s : State) (r : Response) : (s.answer r).mem = s.mem := rfl
@[simp] theorem State.answer_rxLen (s : State) (r : Response) : (s.answer r).rxLen = s.rxLen := rfl
@[simp] theorem State.answer_txState (s : State) (r : Response) : (s.answer r).txState = s.txState := rfl
@[simp] theorem State.answer_txIdx (s : State) (r : Response) : (s.answer r).txIdx = s.txIdx := rfl
@[simp] theorem State.answer_txSeq (s : State) (r : Response) : (s.answer r).txSeq = s.txSeq := rfl
@[simp] theorem State.answer_ackSeen (s : State) (r : Response) : (s.answer r).ackSeen = s.ackSeen := rfl
@[simp] theorem State.answer_txFrame (s : State) (r : Response) : (s.answer r).txFrame = s.txFrame := rfl
@[simp] theorem State.answer_txT0 (s : State) (r : Response) : (s.answer r).txT0 = s.txT0 := rfl
@[simp] theorem State.answer_txDeadline (s : State) (r : Response) : (s.answer r).txDeadline = s.txDeadline := rfl
@[simp] theorem State.answer_txRetry (s : State) (r : Response) : (s.answer r).txRetry = s.txRetry := rfl
@[simp] theorem State.answer_txLastRetries (s : State) (r : Response) : (s.answer r).txLastRetries = s.txLastRetries := rfl
@[simp] theorem State.answer_txResult (s : State) (r : Response) : (s.answer r).txResult = s.txResult := rfl
@[simp] theorem State.answer_rxEn (s : State) (r : Response) : (s.answer r).rxEn = s.rxEn := rfl
@[simp] theorem State.answer_rxState (s : State) (r : Response) : (s.answer r).rxState = s.rxState := rfl
@[simp] theorem State.answer_rxTs (s : State) (r : Response) : (s.answer r).rxTs = s.rxTs := rfl
@[simp] theorem State.answer_rxTfirst (s : State) (r : Response) : (s.answer r).rxTfirst = s.rxTfirst := rfl
@[simp] theorem State.answer_rxTlast (s : State) (r : Response) : (s.answer r).rxTlast = s.rxTlast := rfl
@[simp] theorem State.answer_rxSession (s : State) (r : Response) : (s.answer r).rxSession = s.rxSession := rfl
@[simp] theorem State.answer_rxLastSeq (s : State) (r : Response) : (s.answer r).rxLastSeq = s.rxLastSeq := rfl
@[simp] theorem State.answer_rxResult (s : State) (r : Response) : (s.answer r).rxResult = s.rxResult := rfl
@[simp] theorem State.answer_rxAmbig (s : State) (r : Response) : (s.answer r).rxAmbig = s.rxAmbig := rfl
@[simp] theorem State.answer_dataOut (s : State) (r : Response) : (s.answer r).dataOut = false := rfl
@[simp] theorem State.answer_ackOut (s : State) (r : Response) : (s.answer r).ackOut = false := rfl
@[simp] theorem State.answer_response (s : State) (r : Response) : (s.answer r).response = r := rfl
@[simp] theorem State.answer_script (s : State) (r : Response) : (s.answer r).script = s.script := rfl

/-! `State.quiet`. -/

@[simp] theorem State.quiet_build (s : State) : s.quiet.build = s.build := rfl
@[simp] theorem State.quiet_now (s : State) : s.quiet.now = s.now := rfl
@[simp] theorem State.quiet_nowHiShadow (s : State) : s.quiet.nowHiShadow = s.nowHiShadow := rfl
@[simp] theorem State.quiet_flags (s : State) : s.quiet.flags = s.flags := rfl
@[simp] theorem State.quiet_irqEn (s : State) : s.quiet.irqEn = s.irqEn := rfl
@[simp] theorem State.quiet_errCode (s : State) : s.quiet.errCode = s.errCode := rfl
@[simp] theorem State.quiet_reanchor (s : State) : s.quiet.reanchor = s.reanchor := rfl
@[simp] theorem State.quiet_cfgTslot (s : State) : s.quiet.cfgTslot = s.cfgTslot := rfl
@[simp] theorem State.quiet_cfgTidle (s : State) : s.quiet.cfgTidle = s.cfgTidle := rfl
@[simp] theorem State.quiet_cfgTack (s : State) : s.quiet.cfgTack = s.cfgTack := rfl
@[simp] theorem State.quiet_cfgMaxRetry (s : State) : s.quiet.cfgMaxRetry = s.cfgMaxRetry := rfl
@[simp] theorem State.quiet_cfgAmbig (s : State) : s.quiet.cfgAmbig = s.cfgAmbig := rfl
@[simp] theorem State.quiet_peerId (s : State) : s.quiet.peerId = s.peerId := rfl
@[simp] theorem State.quiet_peerValid (s : State) : s.quiet.peerValid = s.peerValid := rfl
@[simp] theorem State.quiet_txLen (s : State) : s.quiet.txLen = s.txLen := rfl
@[simp] theorem State.quiet_mem (s : State) : s.quiet.mem = s.mem := rfl
@[simp] theorem State.quiet_rxLen (s : State) : s.quiet.rxLen = s.rxLen := rfl
@[simp] theorem State.quiet_txState (s : State) : s.quiet.txState = s.txState := rfl
@[simp] theorem State.quiet_txIdx (s : State) : s.quiet.txIdx = s.txIdx := rfl
@[simp] theorem State.quiet_txSeq (s : State) : s.quiet.txSeq = s.txSeq := rfl
@[simp] theorem State.quiet_ackSeen (s : State) : s.quiet.ackSeen = s.ackSeen := rfl
@[simp] theorem State.quiet_txFrame (s : State) : s.quiet.txFrame = s.txFrame := rfl
@[simp] theorem State.quiet_txT0 (s : State) : s.quiet.txT0 = s.txT0 := rfl
@[simp] theorem State.quiet_txDeadline (s : State) : s.quiet.txDeadline = s.txDeadline := rfl
@[simp] theorem State.quiet_txRetry (s : State) : s.quiet.txRetry = s.txRetry := rfl
@[simp] theorem State.quiet_txLastRetries (s : State) : s.quiet.txLastRetries = s.txLastRetries := rfl
@[simp] theorem State.quiet_txResult (s : State) : s.quiet.txResult = s.txResult := rfl
@[simp] theorem State.quiet_rxEn (s : State) : s.quiet.rxEn = s.rxEn := rfl
@[simp] theorem State.quiet_rxState (s : State) : s.quiet.rxState = s.rxState := rfl
@[simp] theorem State.quiet_rxTs (s : State) : s.quiet.rxTs = s.rxTs := rfl
@[simp] theorem State.quiet_rxTfirst (s : State) : s.quiet.rxTfirst = s.rxTfirst := rfl
@[simp] theorem State.quiet_rxTlast (s : State) : s.quiet.rxTlast = s.rxTlast := rfl
@[simp] theorem State.quiet_rxSession (s : State) : s.quiet.rxSession = s.rxSession := rfl
@[simp] theorem State.quiet_rxLastSeq (s : State) : s.quiet.rxLastSeq = s.rxLastSeq := rfl
@[simp] theorem State.quiet_rxResult (s : State) : s.quiet.rxResult = s.rxResult := rfl
@[simp] theorem State.quiet_rxAmbig (s : State) : s.quiet.rxAmbig = s.rxAmbig := rfl
@[simp] theorem State.quiet_dataOut (s : State) : s.quiet.dataOut = false := rfl
@[simp] theorem State.quiet_ackOut (s : State) : s.quiet.ackOut = false := rfl
@[simp] theorem State.quiet_response (s : State) : s.quiet.response = .none := rfl
@[simp] theorem State.quiet_script (s : State) : s.quiet.script = s.script := rfl

/-! `State.setFlag`. -/

@[simp] theorem State.setFlag_build (s : State) (f : Flag) : (s.setFlag f).build = s.build := rfl
@[simp] theorem State.setFlag_now (s : State) (f : Flag) : (s.setFlag f).now = s.now := rfl
@[simp] theorem State.setFlag_nowHiShadow (s : State) (f : Flag) : (s.setFlag f).nowHiShadow = s.nowHiShadow := rfl
@[simp] theorem State.setFlag_flags (s : State) (f : Flag) : (s.setFlag f).flags = s.flags ||| f.mask := rfl
@[simp] theorem State.setFlag_irqEn (s : State) (f : Flag) : (s.setFlag f).irqEn = s.irqEn := rfl
@[simp] theorem State.setFlag_errCode (s : State) (f : Flag) : (s.setFlag f).errCode = s.errCode := rfl
@[simp] theorem State.setFlag_reanchor (s : State) (f : Flag) : (s.setFlag f).reanchor = s.reanchor := rfl
@[simp] theorem State.setFlag_cfgTslot (s : State) (f : Flag) : (s.setFlag f).cfgTslot = s.cfgTslot := rfl
@[simp] theorem State.setFlag_cfgTidle (s : State) (f : Flag) : (s.setFlag f).cfgTidle = s.cfgTidle := rfl
@[simp] theorem State.setFlag_cfgTack (s : State) (f : Flag) : (s.setFlag f).cfgTack = s.cfgTack := rfl
@[simp] theorem State.setFlag_cfgMaxRetry (s : State) (f : Flag) : (s.setFlag f).cfgMaxRetry = s.cfgMaxRetry := rfl
@[simp] theorem State.setFlag_cfgAmbig (s : State) (f : Flag) : (s.setFlag f).cfgAmbig = s.cfgAmbig := rfl
@[simp] theorem State.setFlag_peerId (s : State) (f : Flag) : (s.setFlag f).peerId = s.peerId := rfl
@[simp] theorem State.setFlag_peerValid (s : State) (f : Flag) : (s.setFlag f).peerValid = s.peerValid := rfl
@[simp] theorem State.setFlag_txLen (s : State) (f : Flag) : (s.setFlag f).txLen = s.txLen := rfl
@[simp] theorem State.setFlag_mem (s : State) (f : Flag) : (s.setFlag f).mem = s.mem := rfl
@[simp] theorem State.setFlag_rxLen (s : State) (f : Flag) : (s.setFlag f).rxLen = s.rxLen := rfl
@[simp] theorem State.setFlag_txState (s : State) (f : Flag) : (s.setFlag f).txState = s.txState := rfl
@[simp] theorem State.setFlag_txIdx (s : State) (f : Flag) : (s.setFlag f).txIdx = s.txIdx := rfl
@[simp] theorem State.setFlag_txSeq (s : State) (f : Flag) : (s.setFlag f).txSeq = s.txSeq := rfl
@[simp] theorem State.setFlag_ackSeen (s : State) (f : Flag) : (s.setFlag f).ackSeen = s.ackSeen := rfl
@[simp] theorem State.setFlag_txFrame (s : State) (f : Flag) : (s.setFlag f).txFrame = s.txFrame := rfl
@[simp] theorem State.setFlag_txT0 (s : State) (f : Flag) : (s.setFlag f).txT0 = s.txT0 := rfl
@[simp] theorem State.setFlag_txDeadline (s : State) (f : Flag) : (s.setFlag f).txDeadline = s.txDeadline := rfl
@[simp] theorem State.setFlag_txRetry (s : State) (f : Flag) : (s.setFlag f).txRetry = s.txRetry := rfl
@[simp] theorem State.setFlag_txLastRetries (s : State) (f : Flag) : (s.setFlag f).txLastRetries = s.txLastRetries := rfl
@[simp] theorem State.setFlag_txResult (s : State) (f : Flag) : (s.setFlag f).txResult = s.txResult := rfl
@[simp] theorem State.setFlag_rxEn (s : State) (f : Flag) : (s.setFlag f).rxEn = s.rxEn := rfl
@[simp] theorem State.setFlag_rxState (s : State) (f : Flag) : (s.setFlag f).rxState = s.rxState := rfl
@[simp] theorem State.setFlag_rxTs (s : State) (f : Flag) : (s.setFlag f).rxTs = s.rxTs := rfl
@[simp] theorem State.setFlag_rxTfirst (s : State) (f : Flag) : (s.setFlag f).rxTfirst = s.rxTfirst := rfl
@[simp] theorem State.setFlag_rxTlast (s : State) (f : Flag) : (s.setFlag f).rxTlast = s.rxTlast := rfl
@[simp] theorem State.setFlag_rxSession (s : State) (f : Flag) : (s.setFlag f).rxSession = s.rxSession := rfl
@[simp] theorem State.setFlag_rxLastSeq (s : State) (f : Flag) : (s.setFlag f).rxLastSeq = s.rxLastSeq := rfl
@[simp] theorem State.setFlag_rxResult (s : State) (f : Flag) : (s.setFlag f).rxResult = s.rxResult := rfl
@[simp] theorem State.setFlag_rxAmbig (s : State) (f : Flag) : (s.setFlag f).rxAmbig = s.rxAmbig := rfl
@[simp] theorem State.setFlag_dataOut (s : State) (f : Flag) : (s.setFlag f).dataOut = s.dataOut := rfl
@[simp] theorem State.setFlag_ackOut (s : State) (f : Flag) : (s.setFlag f).ackOut = s.ackOut := rfl
@[simp] theorem State.setFlag_response (s : State) (f : Flag) : (s.setFlag f).response = s.response := rfl
@[simp] theorem State.setFlag_script (s : State) (f : Flag) : (s.setFlag f).script = s.script := rfl

/-! `State.clearFlags`. -/

@[simp] theorem State.clearFlags_build (s : State) (v : BitVec 8) : (s.clearFlags v).build = s.build := rfl
@[simp] theorem State.clearFlags_now (s : State) (v : BitVec 8) : (s.clearFlags v).now = s.now := rfl
@[simp] theorem State.clearFlags_nowHiShadow (s : State) (v : BitVec 8) : (s.clearFlags v).nowHiShadow = s.nowHiShadow := rfl
@[simp] theorem State.clearFlags_flags (s : State) (v : BitVec 8) : (s.clearFlags v).flags = s.flags &&& ~~~v := rfl
@[simp] theorem State.clearFlags_irqEn (s : State) (v : BitVec 8) : (s.clearFlags v).irqEn = s.irqEn := rfl
@[simp] theorem State.clearFlags_errCode (s : State) (v : BitVec 8) : (s.clearFlags v).errCode = s.errCode := rfl
@[simp] theorem State.clearFlags_reanchor (s : State) (v : BitVec 8) : (s.clearFlags v).reanchor = s.reanchor := rfl
@[simp] theorem State.clearFlags_cfgTslot (s : State) (v : BitVec 8) : (s.clearFlags v).cfgTslot = s.cfgTslot := rfl
@[simp] theorem State.clearFlags_cfgTidle (s : State) (v : BitVec 8) : (s.clearFlags v).cfgTidle = s.cfgTidle := rfl
@[simp] theorem State.clearFlags_cfgTack (s : State) (v : BitVec 8) : (s.clearFlags v).cfgTack = s.cfgTack := rfl
@[simp] theorem State.clearFlags_cfgMaxRetry (s : State) (v : BitVec 8) : (s.clearFlags v).cfgMaxRetry = s.cfgMaxRetry := rfl
@[simp] theorem State.clearFlags_cfgAmbig (s : State) (v : BitVec 8) : (s.clearFlags v).cfgAmbig = s.cfgAmbig := rfl
@[simp] theorem State.clearFlags_peerId (s : State) (v : BitVec 8) : (s.clearFlags v).peerId = s.peerId := rfl
@[simp] theorem State.clearFlags_peerValid (s : State) (v : BitVec 8) : (s.clearFlags v).peerValid = s.peerValid := rfl
@[simp] theorem State.clearFlags_txLen (s : State) (v : BitVec 8) : (s.clearFlags v).txLen = s.txLen := rfl
@[simp] theorem State.clearFlags_mem (s : State) (v : BitVec 8) : (s.clearFlags v).mem = s.mem := rfl
@[simp] theorem State.clearFlags_rxLen (s : State) (v : BitVec 8) : (s.clearFlags v).rxLen = s.rxLen := rfl
@[simp] theorem State.clearFlags_txState (s : State) (v : BitVec 8) : (s.clearFlags v).txState = s.txState := rfl
@[simp] theorem State.clearFlags_txIdx (s : State) (v : BitVec 8) : (s.clearFlags v).txIdx = s.txIdx := rfl
@[simp] theorem State.clearFlags_txSeq (s : State) (v : BitVec 8) : (s.clearFlags v).txSeq = s.txSeq := rfl
@[simp] theorem State.clearFlags_ackSeen (s : State) (v : BitVec 8) : (s.clearFlags v).ackSeen = s.ackSeen := rfl
@[simp] theorem State.clearFlags_txFrame (s : State) (v : BitVec 8) : (s.clearFlags v).txFrame = s.txFrame := rfl
@[simp] theorem State.clearFlags_txT0 (s : State) (v : BitVec 8) : (s.clearFlags v).txT0 = s.txT0 := rfl
@[simp] theorem State.clearFlags_txDeadline (s : State) (v : BitVec 8) : (s.clearFlags v).txDeadline = s.txDeadline := rfl
@[simp] theorem State.clearFlags_txRetry (s : State) (v : BitVec 8) : (s.clearFlags v).txRetry = s.txRetry := rfl
@[simp] theorem State.clearFlags_txLastRetries (s : State) (v : BitVec 8) : (s.clearFlags v).txLastRetries = s.txLastRetries := rfl
@[simp] theorem State.clearFlags_txResult (s : State) (v : BitVec 8) : (s.clearFlags v).txResult = s.txResult := rfl
@[simp] theorem State.clearFlags_rxEn (s : State) (v : BitVec 8) : (s.clearFlags v).rxEn = s.rxEn := rfl
@[simp] theorem State.clearFlags_rxState (s : State) (v : BitVec 8) : (s.clearFlags v).rxState = s.rxState := rfl
@[simp] theorem State.clearFlags_rxTs (s : State) (v : BitVec 8) : (s.clearFlags v).rxTs = s.rxTs := rfl
@[simp] theorem State.clearFlags_rxTfirst (s : State) (v : BitVec 8) : (s.clearFlags v).rxTfirst = s.rxTfirst := rfl
@[simp] theorem State.clearFlags_rxTlast (s : State) (v : BitVec 8) : (s.clearFlags v).rxTlast = s.rxTlast := rfl
@[simp] theorem State.clearFlags_rxSession (s : State) (v : BitVec 8) : (s.clearFlags v).rxSession = s.rxSession := rfl
@[simp] theorem State.clearFlags_rxLastSeq (s : State) (v : BitVec 8) : (s.clearFlags v).rxLastSeq = s.rxLastSeq := rfl
@[simp] theorem State.clearFlags_rxResult (s : State) (v : BitVec 8) : (s.clearFlags v).rxResult = s.rxResult := rfl
@[simp] theorem State.clearFlags_rxAmbig (s : State) (v : BitVec 8) : (s.clearFlags v).rxAmbig = s.rxAmbig := rfl
@[simp] theorem State.clearFlags_dataOut (s : State) (v : BitVec 8) : (s.clearFlags v).dataOut = s.dataOut := rfl
@[simp] theorem State.clearFlags_ackOut (s : State) (v : BitVec 8) : (s.clearFlags v).ackOut = s.ackOut := rfl
@[simp] theorem State.clearFlags_response (s : State) (v : BitVec 8) : (s.clearFlags v).response = s.response := rfl
@[simp] theorem State.clearFlags_script (s : State) (v : BitVec 8) : (s.clearFlags v).script = s.script := rfl

/-! `State.emitAck`. -/

@[simp] theorem State.emitAck_build (s : State) : s.emitAck.build = s.build := rfl
@[simp] theorem State.emitAck_now (s : State) : s.emitAck.now = s.now := rfl
@[simp] theorem State.emitAck_nowHiShadow (s : State) : s.emitAck.nowHiShadow = s.nowHiShadow := rfl
@[simp] theorem State.emitAck_flags (s : State) : s.emitAck.flags = s.flags := rfl
@[simp] theorem State.emitAck_irqEn (s : State) : s.emitAck.irqEn = s.irqEn := rfl
@[simp] theorem State.emitAck_errCode (s : State) : s.emitAck.errCode = s.errCode := rfl
@[simp] theorem State.emitAck_reanchor (s : State) : s.emitAck.reanchor = s.reanchor := rfl
@[simp] theorem State.emitAck_cfgTslot (s : State) : s.emitAck.cfgTslot = s.cfgTslot := rfl
@[simp] theorem State.emitAck_cfgTidle (s : State) : s.emitAck.cfgTidle = s.cfgTidle := rfl
@[simp] theorem State.emitAck_cfgTack (s : State) : s.emitAck.cfgTack = s.cfgTack := rfl
@[simp] theorem State.emitAck_cfgMaxRetry (s : State) : s.emitAck.cfgMaxRetry = s.cfgMaxRetry := rfl
@[simp] theorem State.emitAck_cfgAmbig (s : State) : s.emitAck.cfgAmbig = s.cfgAmbig := rfl
@[simp] theorem State.emitAck_peerId (s : State) : s.emitAck.peerId = s.peerId := rfl
@[simp] theorem State.emitAck_peerValid (s : State) : s.emitAck.peerValid = s.peerValid := rfl
@[simp] theorem State.emitAck_txLen (s : State) : s.emitAck.txLen = s.txLen := rfl
@[simp] theorem State.emitAck_mem (s : State) : s.emitAck.mem = s.mem := rfl
@[simp] theorem State.emitAck_rxLen (s : State) : s.emitAck.rxLen = s.rxLen := rfl
@[simp] theorem State.emitAck_txState (s : State) : s.emitAck.txState = s.txState := rfl
@[simp] theorem State.emitAck_txIdx (s : State) : s.emitAck.txIdx = s.txIdx := rfl
@[simp] theorem State.emitAck_txSeq (s : State) : s.emitAck.txSeq = s.txSeq := rfl
@[simp] theorem State.emitAck_ackSeen (s : State) : s.emitAck.ackSeen = s.ackSeen := rfl
@[simp] theorem State.emitAck_txFrame (s : State) : s.emitAck.txFrame = s.txFrame := rfl
@[simp] theorem State.emitAck_txT0 (s : State) : s.emitAck.txT0 = s.txT0 := rfl
@[simp] theorem State.emitAck_txDeadline (s : State) : s.emitAck.txDeadline = s.txDeadline := rfl
@[simp] theorem State.emitAck_txRetry (s : State) : s.emitAck.txRetry = s.txRetry := rfl
@[simp] theorem State.emitAck_txLastRetries (s : State) : s.emitAck.txLastRetries = s.txLastRetries := rfl
@[simp] theorem State.emitAck_txResult (s : State) : s.emitAck.txResult = s.txResult := rfl
@[simp] theorem State.emitAck_rxEn (s : State) : s.emitAck.rxEn = s.rxEn := rfl
@[simp] theorem State.emitAck_rxState (s : State) : s.emitAck.rxState = s.rxState := rfl
@[simp] theorem State.emitAck_rxTs (s : State) : s.emitAck.rxTs = s.rxTs := rfl
@[simp] theorem State.emitAck_rxTfirst (s : State) : s.emitAck.rxTfirst = s.rxTfirst := rfl
@[simp] theorem State.emitAck_rxTlast (s : State) : s.emitAck.rxTlast = s.rxTlast := rfl
@[simp] theorem State.emitAck_rxSession (s : State) : s.emitAck.rxSession = s.rxSession := rfl
@[simp] theorem State.emitAck_rxLastSeq (s : State) : s.emitAck.rxLastSeq = s.rxLastSeq := rfl
@[simp] theorem State.emitAck_rxResult (s : State) : s.emitAck.rxResult = s.rxResult := rfl
@[simp] theorem State.emitAck_rxAmbig (s : State) : s.emitAck.rxAmbig = s.rxAmbig := rfl
@[simp] theorem State.emitAck_dataOut (s : State) : s.emitAck.dataOut = s.dataOut := rfl
@[simp] theorem State.emitAck_ackOut (s : State) : s.emitAck.ackOut = true := rfl
@[simp] theorem State.emitAck_response (s : State) : s.emitAck.response = s.response := rfl
@[simp] theorem State.emitAck_script (s : State) : s.emitAck.script = s.script := rfl

/-! `State.raise` (60_exceptions.md R271: the event writes its code register and its flag, nothing else). -/

@[simp] theorem State.raise_build (s : State) (ev : Event) : (s.raise ev).build = s.build := by cases ev <;> rfl
@[simp] theorem State.raise_now (s : State) (ev : Event) : (s.raise ev).now = s.now := by cases ev <;> rfl
@[simp] theorem State.raise_nowHiShadow (s : State) (ev : Event) : (s.raise ev).nowHiShadow = s.nowHiShadow := by cases ev <;> rfl
@[simp] theorem State.raise_irqEn (s : State) (ev : Event) : (s.raise ev).irqEn = s.irqEn := by cases ev <;> rfl
@[simp] theorem State.raise_reanchor (s : State) (ev : Event) : (s.raise ev).reanchor = s.reanchor := by cases ev <;> rfl
@[simp] theorem State.raise_cfgTslot (s : State) (ev : Event) : (s.raise ev).cfgTslot = s.cfgTslot := by cases ev <;> rfl
@[simp] theorem State.raise_cfgTidle (s : State) (ev : Event) : (s.raise ev).cfgTidle = s.cfgTidle := by cases ev <;> rfl
@[simp] theorem State.raise_cfgTack (s : State) (ev : Event) : (s.raise ev).cfgTack = s.cfgTack := by cases ev <;> rfl
@[simp] theorem State.raise_cfgMaxRetry (s : State) (ev : Event) : (s.raise ev).cfgMaxRetry = s.cfgMaxRetry := by cases ev <;> rfl
@[simp] theorem State.raise_cfgAmbig (s : State) (ev : Event) : (s.raise ev).cfgAmbig = s.cfgAmbig := by cases ev <;> rfl
@[simp] theorem State.raise_peerId (s : State) (ev : Event) : (s.raise ev).peerId = s.peerId := by cases ev <;> rfl
@[simp] theorem State.raise_peerValid (s : State) (ev : Event) : (s.raise ev).peerValid = s.peerValid := by cases ev <;> rfl
@[simp] theorem State.raise_txLen (s : State) (ev : Event) : (s.raise ev).txLen = s.txLen := by cases ev <;> rfl
@[simp] theorem State.raise_mem (s : State) (ev : Event) : (s.raise ev).mem = s.mem := by cases ev <;> rfl
@[simp] theorem State.raise_rxLen (s : State) (ev : Event) : (s.raise ev).rxLen = s.rxLen := by cases ev <;> rfl
@[simp] theorem State.raise_txState (s : State) (ev : Event) : (s.raise ev).txState = s.txState := by cases ev <;> rfl
@[simp] theorem State.raise_txIdx (s : State) (ev : Event) : (s.raise ev).txIdx = s.txIdx := by cases ev <;> rfl
@[simp] theorem State.raise_txSeq (s : State) (ev : Event) : (s.raise ev).txSeq = s.txSeq := by cases ev <;> rfl
@[simp] theorem State.raise_ackSeen (s : State) (ev : Event) : (s.raise ev).ackSeen = s.ackSeen := by cases ev <;> rfl
@[simp] theorem State.raise_txFrame (s : State) (ev : Event) : (s.raise ev).txFrame = s.txFrame := by cases ev <;> rfl
@[simp] theorem State.raise_txT0 (s : State) (ev : Event) : (s.raise ev).txT0 = s.txT0 := by cases ev <;> rfl
@[simp] theorem State.raise_txDeadline (s : State) (ev : Event) : (s.raise ev).txDeadline = s.txDeadline := by cases ev <;> rfl
@[simp] theorem State.raise_txRetry (s : State) (ev : Event) : (s.raise ev).txRetry = s.txRetry := by cases ev <;> rfl
@[simp] theorem State.raise_txLastRetries (s : State) (ev : Event) : (s.raise ev).txLastRetries = s.txLastRetries := by cases ev <;> rfl
@[simp] theorem State.raise_rxEn (s : State) (ev : Event) : (s.raise ev).rxEn = s.rxEn := by cases ev <;> rfl
@[simp] theorem State.raise_rxState (s : State) (ev : Event) : (s.raise ev).rxState = s.rxState := by cases ev <;> rfl
@[simp] theorem State.raise_rxTs (s : State) (ev : Event) : (s.raise ev).rxTs = s.rxTs := by cases ev <;> rfl
@[simp] theorem State.raise_rxTfirst (s : State) (ev : Event) : (s.raise ev).rxTfirst = s.rxTfirst := by cases ev <;> rfl
@[simp] theorem State.raise_rxTlast (s : State) (ev : Event) : (s.raise ev).rxTlast = s.rxTlast := by cases ev <;> rfl
@[simp] theorem State.raise_rxSession (s : State) (ev : Event) : (s.raise ev).rxSession = s.rxSession := by cases ev <;> rfl
@[simp] theorem State.raise_rxLastSeq (s : State) (ev : Event) : (s.raise ev).rxLastSeq = s.rxLastSeq := by cases ev <;> rfl
@[simp] theorem State.raise_dataOut (s : State) (ev : Event) : (s.raise ev).dataOut = s.dataOut := by cases ev <;> rfl
@[simp] theorem State.raise_ackOut (s : State) (ev : Event) : (s.raise ev).ackOut = s.ackOut := by cases ev <;> rfl
@[simp] theorem State.raise_response (s : State) (ev : Event) : (s.raise ev).response = s.response := by cases ev <;> rfl
@[simp] theorem State.raise_script (s : State) (ev : Event) : (s.raise ev).script = s.script := by cases ev <;> rfl

end Sys2Proof.Machine
end

