-- ==== Sys2Proof/Laws/Operands.lean ====
section
/-! SUPPORT. The operands of the operations as propositions: each Boolean condition says once what it holds of, and the
sender's dispatch is said once for each of its cases. -/

namespace Sys2Proof.Machine

/-- `cfg_ok` (10_state.md R36). -/
theorem State.cfgOk_iff (s : State) :
    s.cfgOk = true ↔ 1 ≤ s.cfgTslot.toNat ∧ s.cfgTslot.toNat < s.cfgTidle.toNat ∧ 1 ≤ s.cfgTack.toNat := by
  simp only [State.cfgOk, Bool.and_eq_true, decide_eq_true_eq, and_assoc]
  rfl

/-- `quiescent` (10_state.md R36). -/
theorem State.quiescent_iff (s : State) :
    s.quiescent = true ↔ (s.txState = .idle ∨ s.txState = .failed) ∧ s.rxState = .idle ∧ s.rxEn = false := by
  simp [State.quiescent, and_assoc]

/-- The no-overflow premise (70_reset_and_hazards.md R304), in the registers' names. -/
theorem State.timeOk_def (s : State) :
    s.timeOk = decide (s.now + s.tack + s.tidle + s.build.frameMaxBits * s.tslot + 2 < 2 ^ s.build.tsW) := rfl

/-- `d` of the sender's vector. -/
theorem State.due_iff (s : State) : s.due = true ↔ s.now = s.txT0 + s.txIdx * s.cfgTslot.toNat := by
  simp only [State.due, beq_iff_eq]; rfl

/-- `l` of the sender's vector. -/
theorem State.lastBit_iff (s : State) : s.lastBit = true ↔ s.txIdx + 1 = 8 * s.txFrame.length := by
  simp only [State.lastBit, beq_iff_eq]; rfl

/-- `t` of the sender's vector. -/
theorem State.timedOut_iff (s : State) : s.timedOut = true ↔ s.txDeadline ≤ s.now := by
  simp only [State.timedOut, decide_eq_true_eq]

/-- `x` of the sender's vector. -/
theorem State.exhausted_iff (s : State) : s.exhausted = true ↔ s.cfgMaxRetry.toNat ≤ s.txRetry.toNat := by
  simp only [State.exhausted, decide_eq_true_eq]

/-- `i` of the receiver's vector. -/
theorem State.idleExpired_iff (s : State) : s.idleExpired = true ↔ s.rxTlast + s.cfgTidle.toNat < s.now := by
  simp only [State.idleExpired, decide_eq_true_eq]; rfl

/-- `q` of the outcome vector. -/
theorem State.isDuplicate_iff (q : Bool) (s : State) :
    s.isDuplicate q = true ↔ s.rxSession = true ∧ s.rxLastSeq = q := by
  simp [State.isDuplicate]

/-! The sender's dispatch, one lemma for each of its cases (30_encoding.md R112). -/

theorem State.txOp_idle {s : State} (h : s.txState = .idle) : s.txOp = .holdIdle := by simp [State.txOp, h]

theorem State.txOp_failed {s : State} (h : s.txState = .failed) : s.txOp = .holdFailed := by simp [State.txOp, h]

theorem State.txOp_waitSlot {s : State} (h : s.txState = .sending) (hd : s.due = false) : s.txOp = .waitSlot := by
  simp [State.txOp, h, hd]

theorem State.txOp_emit {s : State} (h : s.txState = .sending) (hd : s.due = true) (hl : s.lastBit = false) :
    s.txOp = .emit := by simp [State.txOp, h, hd, hl]

theorem State.txOp_emitLast {s : State} (h : s.txState = .sending) (hd : s.due = true) (hl : s.lastBit = true) :
    s.txOp = .emitLast := by simp [State.txOp, h, hd, hl]

theorem State.txOp_acked {s : State} (h : s.txState = .waitingAck) (ha : s.ackSeen = true) : s.txOp = .acked := by
  simp [State.txOp, h, ha]

theorem State.txOp_wait {s : State} (h : s.txState = .waitingAck) (ha : s.ackSeen = false) (ht : s.timedOut = false) :
    s.txOp = .wait := by simp [State.txOp, h, ha, ht]

theorem State.txOp_retx {s : State} (h : s.txState = .waitingAck) (ha : s.ackSeen = false) (ht : s.timedOut = true)
    (hx : s.exhausted = false) : s.txOp = .retx := by simp [State.txOp, h, ha, ht, hx]

theorem State.txOp_fail {s : State} (h : s.txState = .waitingAck) (ha : s.ackSeen = false) (ht : s.timedOut = true)
    (hx : s.exhausted = true) : s.txOp = .fail := by simp [State.txOp, h, ha, ht, hx]

/-- What the dispatch selects, read backwards: each operation with the state and conditions that select it. -/
theorem State.txOp_cases (s : State) :
    (s.txState = .idle ∧ s.txOp = .holdIdle) ∨ (s.txState = .failed ∧ s.txOp = .holdFailed) ∨
    (s.txState = .sending ∧ s.due = false ∧ s.txOp = .waitSlot) ∨
    (s.txState = .sending ∧ s.due = true ∧ s.lastBit = false ∧ s.txOp = .emit) ∨
    (s.txState = .sending ∧ s.due = true ∧ s.lastBit = true ∧ s.txOp = .emitLast) ∨
    (s.txState = .waitingAck ∧ s.ackSeen = true ∧ s.txOp = .acked) ∨
    (s.txState = .waitingAck ∧ s.ackSeen = false ∧ s.timedOut = false ∧ s.txOp = .wait) ∨
    (s.txState = .waitingAck ∧ s.ackSeen = false ∧ s.timedOut = true ∧ s.exhausted = false ∧ s.txOp = .retx) ∨
    (s.txState = .waitingAck ∧ s.ackSeen = false ∧ s.timedOut = true ∧ s.exhausted = true ∧ s.txOp = .fail) := by
  cases h : s.txState <;> cases h1 : s.due <;> cases h2 : s.lastBit <;> cases h3 : s.ackSeen <;>
    cases h4 : s.timedOut <;> cases h5 : s.exhausted <;> simp [State.txOp, h, h1, h2, h3, h4, h5]

/-- The dispatch reads nothing that clearing the strobes writes. -/
@[simp] theorem State.txOp_quiet (s : State) : s.quiet.txOp = s.txOp := rfl

/-- What phase P4 does, by the operation that the dispatch selects. -/
theorem State.phaseTx_eq (s : State) :
    s.phaseTx = (match s.txOp with
      | .holdIdle | .holdFailed | .waitSlot | .wait => s
      | .emit => s.doEmit
      | .emitLast => s.doEmitLast
      | .acked => s.doAcked
      | .retx => s.doRetx
      | .fail => s.doFail) := by
  simp only [State.phaseTx]; cases s.txOp <;> rfl

/-- The bits of the sender's message, as reads of `TXBUF`. -/
theorem State.message_eq (s : State) :
    s.message = (List.range s.txLen.toNat).map fun i => s.mem.read (0x400 + i) := by
  apply List.ext_getElem
  · simp [State.message]
  · intro i h1 h2
    simp only [State.message, Memory.getElem_readBytes, List.getElem_map, List.getElem_range, txbufAddr, Nat.add_zero]

/-- What a pulse does in phase P1 (30_encoding.md R113). -/
theorem State.phaseCapture_pulse (s : State) :
    (s.rxState = .receiving ∧ s.rxTs.length < s.build.rxTsDepth ∧
      s.phaseCapture true = { s with rxTlast := s.now, rxTs := s.rxTs ++ [s.now] }) ∨
    (s.rxState = .receiving ∧ s.build.rxTsDepth ≤ s.rxTs.length ∧
      s.phaseCapture true = { s with rxTlast := s.now, flags := s.flags ||| Flag.rxOvf.mask }) ∨
    (s.rxState = .idle ∧ s.rxEn = true ∧ s.phaseCapture true
      = { s with rxState := .receiving, rxTs := [s.now], rxTfirst := s.now, rxTlast := s.now }) ∨
    (s.rxState = .idle ∧ s.rxEn = false ∧ s.phaseCapture true = s) := by
  cases h : s.rxState
  · cases he : s.rxEn
    · exact .inr (.inr (.inr ⟨rfl, rfl, by simp only [State.phaseCapture, h, he, if_true]⟩))
    · refine .inr (.inr (.inl ⟨rfl, rfl, ?_⟩))
      simp only [State.phaseCapture, h, he, if_true]; rw [← he]; rfl
  · by_cases hl : s.rxTs.length < s.build.rxTsDepth
    · refine .inl ⟨rfl, hl, ?_⟩
      simp only [State.phaseCapture, h, if_true, State.doCapture, if_pos hl]
    · refine .inr (.inl ⟨rfl, by omega, ?_⟩)
      simp only [State.phaseCapture, h, if_true, State.doCapture, if_neg hl]; rw [← h]; rfl

/-! What each phase may write: every other field of the state is as before. -/

theorem State.phaseCapture_writes (d : Bool) (s : State) :
    ∃ rs ts tf tl fl, s.phaseCapture d
      = { s with rxState := rs, rxTs := ts, rxTfirst := tf, rxTlast := tl, flags := fl } ∧
      (fl = s.flags ∨ fl = s.flags ||| Flag.rxOvf.mask) := by
  cases d
  · exact ⟨_, _, _, _, _, rfl, .inl rfl⟩
  · cases h : s.rxState
    · cases he : s.rxEn
      · refine ⟨s.rxState, s.rxTs, s.rxTfirst, s.rxTlast, s.flags, ?_, .inl rfl⟩
        simp only [State.phaseCapture, h, he, if_true]; rw [← h, ← he]
      · refine ⟨.receiving, [s.now], s.now, s.now, s.flags, ?_, .inl rfl⟩
        simp only [State.phaseCapture, h, he, if_true]; rw [← he]; rfl
    · by_cases hl : s.rxTs.length < s.build.rxTsDepth
      · refine ⟨s.rxState, s.rxTs ++ [s.now], s.rxTfirst, s.now, s.flags, ?_, .inl rfl⟩
        simp only [State.phaseCapture, h, if_true, State.doCapture, if_pos hl]
      · refine ⟨s.rxState, s.rxTs, s.rxTfirst, s.now, s.flags ||| Flag.rxOvf.mask, ?_, .inr rfl⟩
        simp only [State.phaseCapture, h, if_true, State.doCapture, if_neg hl]; rw [← h]; rfl

theorem State.phaseAck_writes (a : Bool) (s : State) :
    ∃ k, s.phaseAck a = { s with ackSeen := k } ∧ (k = true → s.ackSeen = true ∨ (a = true ∧ s.txState = .waitingAck)) := by
  cases a
  · exact ⟨_, rfl, fun h => .inl h⟩
  · cases h : s.txState
    · exact ⟨s.ackSeen, by simp only [State.phaseAck, if_true, State.doAckCapture, h]; rw [← h], fun h => .inl h⟩
    · exact ⟨s.ackSeen, by simp only [State.phaseAck, if_true, State.doAckCapture, h]; rw [← h], fun h => .inl h⟩
    · exact ⟨true, by simp only [State.phaseAck, if_true, State.doAckCapture, h], fun _ => .inr ⟨rfl, rfl⟩⟩
    · exact ⟨s.ackSeen, by simp only [State.phaseAck, if_true, State.doAckCapture, h]; rw [← h], fun h => .inl h⟩

theorem State.doOutcome_writes (v : Verdict) (s : State) :
    ∃ m n fl se sq rr ao, s.doOutcome v
      = { s with mem := m, rxLen := n, flags := fl, rxSession := se, rxLastSeq := sq, rxResult := rr, ackOut := ao } := by
  cases v with
  | err e => exact ⟨_, _, _, _, _, _, _, rfl⟩
  | ok p =>
    cases p with
    | nil => exact ⟨_, _, _, _, _, _, _, rfl⟩
    | cons h m =>
      simp only [State.doOutcome]
      repeat' split
      all_goals exact ⟨_, _, _, _, _, _, _, rfl⟩

theorem State.recordAmbig_writes (n : Nat) (s : State) :
    ∃ fl, s.recordAmbig n = { s with rxAmbig := BitVec.ofNat 16 (min n 0xFFFF), flags := fl } ∧
      fl = s.flags ||| (if 0 < n then 0x80#8 else 0#8) := by
  by_cases h : 0 < n
  · exact ⟨_, by simp only [State.recordAmbig, if_pos h]; rfl, by simp only [if_pos h]; rfl⟩
  · refine ⟨s.flags, by simp only [State.recordAmbig, if_neg h]; rw [show n = 0 by omega]; rfl, by simp [if_neg h]⟩

theorem State.recordOvf_writes (o : Bool) (s : State) :
    ∃ fl, s.recordOvf o = { s with flags := fl } ∧ fl = s.flags ||| (if o then 0x20#8 else 0#8) := by
  cases o
  · exact ⟨s.flags, rfl, by simp⟩
  · exact ⟨_, rfl, rfl⟩

theorem State.doClose_writes (s : State) :
    ∃ am m n fl se sq rr ao, s.doClose
      = { s with rxAmbig := am, mem := m, rxLen := n, flags := fl, rxSession := se, rxLastSeq := sq, rxResult := rr,
                 ackOut := ao, rxTs := [], rxState := .idle } := by
  obtain ⟨fl, h1, -⟩ := s.recordAmbig_writes s.recovered.namb
  obtain ⟨fl', h2, -⟩ := (s.recordAmbig s.recovered.namb).recordOvf_writes s.recovered.ovf
  obtain ⟨m, n, fl'', se, sq, rr, ao, h3⟩ :=
    ((s.recordAmbig s.recovered.namb).recordOvf s.recovered.ovf).doOutcome_writes s.windowVerdict
  refine ⟨BitVec.ofNat 16 (min s.recovered.namb 0xFFFF), m, n, fl'', se, sq, rr, ao, ?_⟩
  rw [State.doClose, h3, h2, h1]

theorem State.phaseClose_writes (s : State) :
    ∃ rs ts am m n fl se sq rr ao, s.phaseClose
      = { s with rxState := rs, rxTs := ts, rxAmbig := am, mem := m, rxLen := n, flags := fl, rxSession := se,
                 rxLastSeq := sq, rxResult := rr, ackOut := ao } := by
  simp only [State.phaseClose]
  split
  · split
    · obtain ⟨am, m, n, fl, se, sq, rr, ao, h⟩ := s.doClose_writes
      exact ⟨.idle, [], am, m, n, fl, se, sq, rr, ao, h⟩
    · exact ⟨_, _, _, _, _, _, _, _, _, _, rfl⟩
  · exact ⟨_, _, _, _, _, _, _, _, _, _, rfl⟩

theorem State.phaseTx_writes (s : State) :
    ∃ st ix sq k t0 dl rt lr rr fl o, s.phaseTx
      = { s with txState := st, txIdx := ix, txSeq := sq, ackSeen := k, txT0 := t0, txDeadline := dl, txRetry := rt,
                 txLastRetries := lr, txResult := rr, flags := fl, dataOut := o } ∧
      (fl = s.flags ∨ fl = s.flags ||| Flag.txDone.mask ∨ fl = s.flags ||| Flag.txFail.mask) := by
  simp only [State.phaseTx]
  split
  all_goals refine ⟨_, _, _, _, _, _, _, _, _, _, _, rfl, ?_⟩
  case h_6 => exact .inr (.inl rfl)
  case h_9 => exact .inr (.inr rfl)
  all_goals exact .inl rfl

/-- What `SEND` does: one of its four rejections, or the new frame (42_arq_sender.md R181). -/
theorem State.doSend_cases (s : State) :
    ((s.txState = .sending ∨ s.txState = .waitingAck) ∧ s.doSend = s.raise (.cmdReject .badState)) ∨
    ((s.txState = .idle ∨ s.txState = .failed) ∧
      ((s.peerValid = false ∧ s.doSend = s.raise (.cmdReject .noPeer)) ∨
       (s.peerValid = true ∧ s.build.maxPayload < s.txLen.toNat ∧ s.doSend = s.raise (.cmdReject .badLength)) ∨
       (s.peerValid = true ∧ s.txLen.toNat ≤ s.build.maxPayload ∧ s.cfgOk = false ∧
         s.doSend = s.raise (.cmdReject .badConfig)) ∨
       (s.peerValid = true ∧ s.txLen.toNat ≤ s.build.maxPayload ∧ s.cfgOk = true ∧
         s.doSend = { s with
           txFrame := s.newFrame, txState := .sending, txT0 := s.now, txIdx := 0, txRetry := 0, txResult := .none,
           ackSeen := false, flags := s.flags &&& ~~~(Flag.txDone.mask ||| Flag.txFail.mask) }))) := by
  simp only [State.doSend]
  have hst : s.txState = .idle ∨ s.txState = .failed ∨ s.txState = .sending ∨ s.txState = .waitingAck := by
    cases s.txState <;> simp
  by_cases h1 : s.txState = .idle ∨ s.txState = .failed
  · have e1 : (!(s.txState == .idle || s.txState == .failed)) = false := by rcases h1 with h | h <;> simp [h]
    refine .inr ⟨h1, ?_⟩
    rw [e1]
    cases h2 : s.peerValid
    · exact .inl ⟨rfl, rfl⟩
    · by_cases h3 : s.build.maxPayload < s.txLen.toNat
      · exact .inr (.inl ⟨rfl, h3, by simp [h3]⟩)
      · cases h4 : s.cfgOk
        · exact .inr (.inr (.inl ⟨rfl, by omega, rfl, by simp [h3]⟩))
        · refine .inr (.inr (.inr ⟨rfl, by omega, rfl, ?_⟩))
          simp only [h3, Bool.not_true, Bool.false_eq_true, if_false]
          rw [← h2]; rfl
  · have h2 : s.txState = .sending ∨ s.txState = .waitingAck := by tauto
    refine .inl ⟨h2, ?_⟩
    have e1 : (!(s.txState == .idle || s.txState == .failed)) = true := by rcases h2 with h | h <;> simp [h]
    rw [e1]; rfl

end Sys2Proof.Machine
end

