-- ==== Sys2Proof/Laws/Exec.lean ====
section
/-! SUPPORT. What an operation can do, said once: every next state is one of a dozen shared operations on the state. -/

namespace Sys2Proof.Machine

/-- The row is a write of a value to a register other than `CMD`. -/
def regWriteOf : Instr → Option (Reg × Word)
  | .regWrFlags v => some (.flags, v)
  | .regWrIrqEn v => some (.irqEn, v)
  | .regWrTxLen v => some (.txLen, v)
  | .regWrPeerId v => some (.peerId, v)
  | .regWrCfgMode v => some (.cfgMode, v)
  | .regWrCfgTslot v => some (.cfgTslot, v)
  | .regWrCfgTidle v => some (.cfgTidle, v)
  | .regWrCfgTack v => some (.cfgTack, v)
  | .regWrCfgMaxRetry v => some (.cfgMaxRetry, v)
  | .regWrCfgAmbig v => some (.cfgAmbig, v)
  | .regWr off v =>
    match Reg.at? off with
    | some r => if r.readOnly || r == .cmd then none else some (r, v)
    | none => none
  | _ => none

/-- The row is an outcome of a decode attempt: a verdict that has it, for a message that fits. -/
def verdictOf : Instr → Option Verdict
  | .rxDropErr e => some (.err e)
  | .rxDropHdr => some (.ok [])
  | .rxDup q => some (.ok [headerByte q])
  | .rxBusy q => some (.ok [headerByte q])
  | .rxDeliver q m => some (.ok (headerByte q :: m))
  | _ => none

/-- What a write to `CMD` does: nothing, one of the four commands, or a rejection (30_encoding.md R108, R109). -/
theorem State.doCommand_cases (v : Word) (s : State) :
    (v = 0 ∧ s.doCommand v = s) ∨ (v = 1 ∧ s.doCommand v = s.doSend) ∨ (v = 2 ∧ s.doCommand v = { s with rxEn := true }) ∨
    (v = 3 ∧ s.doCommand v = { s with rxEn := false }) ∨ (v = 4 ∧ s.doCommand v = s.doSoftReset) ∨
    (∃ c, c ≠ .none ∧ s.doCommand v = s.raise (.cmdReject c)) := by
  simp only [State.doCommand, State.doRxEnable, State.doRxDisable]
  repeat' split
  all_goals first | (simp_all; done) | exact .inr (.inr (.inr (.inr (.inr ⟨_, by decide, rfl⟩))))

/-- What a write to a register other than `CMD` does: to the configuration, the enables and the length, to `FLAGS`, or
a rejection. -/
theorem State.regWrite_cases {i : Instr} {r : Reg} {v : Word} (h : regWriteOf i = some (r, v)) (s : State) :
    (∃ re t ti ta mr am p pv ie tl, s.regWrite r v
      = { s with reanchor := re, cfgTslot := t, cfgTidle := ti, cfgTack := ta, cfgMaxRetry := mr, cfgAmbig := am,
                 peerId := p, peerValid := pv, irqEn := ie, txLen := tl }) ∨
    (r = .flags ∧ s.regWrite r v = s.clearFlags (v.truncate 8)) ∨ s.regWrite r v = s.raise (.cmdReject .locked) := by
  have hc : r ≠ .cmd := by
    rintro rfl
    cases i <;> simp [regWriteOf] at h
    split at h
    · simp at h; exact h.1.2 h.2.1
    · cases h
  cases r
  case cmd => exact absurd rfl hc
  case flags => exact .inr (.inl ⟨rfl, rfl⟩)
  all_goals simp only [State.regWrite, State.writeLocked]
  all_goals (try split)
  all_goals first | exact .inl ⟨_, _, _, _, _, _, _, _, _, _, rfl⟩ | exact .inr (.inr rfl)

/-- A register found at an offset has that offset. -/
theorem Reg.offset_of_at? {off : Nat} {r : Reg} (h : Reg.at? off = some r) : r.offset = off := by
  simpa using List.find?_some h

@[simp] theorem headerByte_getLsbD (q : Bool) : (headerByte q).getLsbD 0 = q := by cases q <;> rfl

theorem State.onTx_quiet_cases (op : TxOp) (f : State → State) (s : State) :
    (s.txOp = op ∧ s.quiet.onTx op f = f s.quiet) ∨ s.quiet.onTx op f = s.quiet := by
  by_cases h : s.txOp = op
  · exact .inl ⟨h, if_pos h⟩
  · exact .inr (if_neg h)

/-- Everything an operation can do where it answers a next state. -/
theorem exec_cases {i : Instr} {s t : State} (h : exec i s = .next t) :
    (∃ r, t = s.answer r) ∨
    (∃ d a, i = .tick d a ∧ s.timeOk = true ∧ t = { s.tickPhases d a with now := s.now + 1 }) ∨
    (i = .reset ∧ t = s.doReset) ∨
    (∃ v, commandOf i = some v ∧ t = (s.doCommand v).answer (.written true)) ∨
    (∃ r v, regWriteOf i = some (r, v) ∧ t = (s.regWrite r v).answer (.written true)) ∨
    (∃ r, i = .regRd 0x44 ∧ t = { s with nowHiShadow := s.nowHi }.answer r) ∨
    (∃ a b, i = .bufWr a b ∧ a < s.build.maxPayload ∧
      t = { s with mem := s.mem.write (txbufAddr a) b }.answer (.written true)) ∨
    (i = .ackCapture ∧ t = s.quiet.phaseAck true) ∨
    (i = s.txOp.toInstr ∧ (s.timeOk = true ∨ (s.txOp ≠ .emitLast ∧ s.txOp ≠ .retx)) ∧ t = s.quiet.phaseTx) ∨
    ((i = .rxStart ∨ i = .rxCapture) ∧ t = s.quiet.phaseCapture true) ∨
    (i = .rxClose ∧ t = s.quiet.phaseClose) ∨
    (∃ v, verdictOf i = some v ∧ (∀ q, i = .rxDup q → s.isDuplicate q = true) ∧
      (∀ q, i = .rxBusy q → s.isDuplicate q = false ∧ s.hasFlag .rxMsg = true) ∧
      (∀ p, v = .ok p → p.length ≤ s.build.maxPayload + 1) ∧ t = s.quiet.doOutcome v) := by
  cases i
  case tick d a =>
    simp only [exec, execTick] at h
    split at h
    · injection h with h; exact .inr (.inl ⟨d, a, rfl, ‹_›, h.symm⟩)
    · cases h
  case txEmitLast | txRetx =>
    simp only [exec, execTxEmitLast, execTxRetx, onTxTimed] at h
    split at h
    · cases h
    · rename_i hn
      injection h with h
      rcases State.onTx_quiet_cases _ _ s with ⟨ho, e⟩ | e <;> rw [e] at h
      · rw [ho] at hn
        refine .inr (.inr (.inr (.inr (.inr (.inr (.inr (.inr (.inl ⟨?_, ?_, ?_⟩))))))))
        · rw [ho]; rfl
        · exact .inl (by simpa using hn)
        · rw [State.phaseTx_eq, State.txOp_quiet, ho]; exact h.symm
      · exact .inl ⟨_, h.symm⟩
  all_goals (injection h with h; subst h)
  case reset => exact .inr (.inr (.inl ⟨rfl, rfl⟩))
  case nop => exact .inr (.inr (.inr (.inl ⟨_, rfl, rfl⟩)))
  case send => exact .inr (.inr (.inr (.inl ⟨_, rfl, rfl⟩)))
  case rxEnable => exact .inr (.inr (.inr (.inl ⟨_, rfl, rfl⟩)))
  case rxDisable => exact .inr (.inr (.inr (.inl ⟨_, rfl, rfl⟩)))
  case softReset => exact .inr (.inr (.inr (.inl ⟨_, rfl, rfl⟩)))
  case cmdReserved v => exact .inr (.inr (.inr (.inl ⟨_, rfl, rfl⟩)))
  case ackCapture => exact .inr (.inr (.inr (.inr (.inr (.inr (.inr (.inl ⟨rfl, rfl⟩)))))))
  case rxClose => exact .inr (.inr (.inr (.inr (.inr (.inr (.inr (.inr (.inr (.inr (.inl ⟨rfl, rfl⟩))))))))))
  case regRd off =>
    simp only [State.readReg]
    split
    · rename_i r hr
      have ho := Reg.offset_of_at? hr
      cases r
      case nowLo => exact .inr (.inr (.inr (.inr (.inr (.inl ⟨_, by rw [← ho]; rfl, rfl⟩)))))
      all_goals exact .inl ⟨_, rfl⟩
    · exact .inl ⟨_, rfl⟩
  case regWr off v =>
    simp only [State.writeReg]
    split
    · rename_i r hr
      have ho := Reg.offset_of_at? hr
      split
      · exact .inl ⟨_, rfl⟩
      · rename_i hro
        by_cases hc : r = .cmd
        · subst hc
          exact .inr (.inr (.inr (.inl ⟨v, by rw [← ho]; rfl, rfl⟩)))
        · refine .inr (.inr (.inr (.inr (.inl ⟨r, v, ?_, rfl⟩))))
          simp [regWriteOf, hr, hc]
          simpa using hro
    · exact .inl ⟨_, rfl⟩
  case bufRd sp a =>
    simp only [State.readBuf]
    split <;> exact .inl ⟨_, rfl⟩
  case bufWr a b =>
    simp only [State.writeTxbuf]
    split
    · exact .inl ⟨_, rfl⟩
    · exact .inr (.inr (.inr (.inr (.inr (.inr (.inl ⟨a, b, rfl, by omega, rfl⟩))))))
  case busError acc => cases acc.op <;> exact .inl ⟨_, rfl⟩
  case regWrFlags | regWrIrqEn | regWrTxLen | regWrPeerId | regWrCfgMode | regWrCfgTslot | regWrCfgTidle | regWrCfgTack
    | regWrCfgMaxRetry | regWrCfgAmbig => exact .inr (.inr (.inr (.inr (.inl ⟨_, _, rfl, rfl⟩))))
  case txEmit | txAcked | txFail =>
    rcases State.onTx_quiet_cases _ _ s with ⟨ho, e⟩ | e <;> rw [e]
    · refine .inr (.inr (.inr (.inr (.inr (.inr (.inr (.inr (.inl ⟨?_, .inr ?_, ?_⟩))))))))
      · rw [ho]; rfl
      · rw [ho]; exact ⟨by decide, by decide⟩
      · rw [State.phaseTx_eq, State.txOp_quiet, ho]
    · exact .inl ⟨_, rfl⟩
  case rxStart =>
    cases h1 : s.rxState <;> cases h2 : s.rxEn
    case idle.true =>
      refine .inr (.inr (.inr (.inr (.inr (.inr (.inr (.inr (.inr (.inl ⟨.inl rfl, ?_⟩)))))))))
      simp only [State.phaseCapture, State.quiet, State.answer, h1, h2, if_true]
    all_goals exact .inl ⟨_, rfl⟩
  case rxCapture =>
    cases h1 : s.rxState
    · exact .inl ⟨_, rfl⟩
    · refine .inr (.inr (.inr (.inr (.inr (.inr (.inr (.inr (.inr (.inl ⟨.inr rfl, ?_⟩)))))))))
      simp only [State.phaseCapture, State.quiet, State.answer, h1, if_true]
  case rxDropErr e =>
    exact .inr (.inr (.inr (.inr (.inr (.inr (.inr (.inr (.inr (.inr (.inr
      ⟨_, rfl, (fun _ h => nomatch h), (fun _ h => nomatch h), fun p hp => (nomatch hp), rfl⟩))))))))))
  case rxDropHdr =>
    exact .inr (.inr (.inr (.inr (.inr (.inr (.inr (.inr (.inr (.inr (.inr
      ⟨_, rfl, (fun _ h => nomatch h), (fun _ h => nomatch h),
        fun p hp => by injection hp with hp; subst hp; exact Nat.zero_le _, rfl⟩))))))))))
  case rxDup q =>
    split
    · rename_i hd
      refine .inr (.inr (.inr (.inr (.inr (.inr (.inr (.inr (.inr (.inr (.inr
        ⟨_, rfl, (fun _ h => by injection h with h; rw [← h]; exact hd), (fun _ h => nomatch h),
          fun p hp => by injection hp with hp; subst hp; exact Nat.le_add_left _ _, ?_⟩))))))))))
      have hd' : s.quiet.isDuplicate q = true := hd
      simp only [State.doOutcome, headerByte_getLsbD, hd', if_true]
    · exact .inl ⟨_, rfl⟩
  case rxBusy q =>
    split
    · rename_i hd
      simp only [Bool.and_eq_true, Bool.not_eq_true'] at hd
      refine .inr (.inr (.inr (.inr (.inr (.inr (.inr (.inr (.inr (.inr (.inr
        ⟨_, rfl, (fun _ h => nomatch h), (fun _ h => by injection h with h; rw [← h]; exact hd),
          fun p hp => by injection hp with hp; subst hp; exact Nat.le_add_left _ _, ?_⟩))))))))))
      have h1 : s.quiet.isDuplicate q = false := hd.1
      have h2 : s.quiet.hasFlag .rxMsg = true := hd.2
      simp only [State.doOutcome, headerByte_getLsbD, h1, h2, if_true, Bool.false_eq_true, if_false]
    · exact .inl ⟨_, rfl⟩
  case rxDeliver q m =>
    split
    · rename_i hd
      simp only [Bool.and_eq_true, Bool.not_eq_true', decide_eq_true_eq] at hd
      refine .inr (.inr (.inr (.inr (.inr (.inr (.inr (.inr (.inr (.inr (.inr
        ⟨_, rfl, (fun _ h => nomatch h), (fun _ h => nomatch h),
          fun p hp => by injection hp with hp; subst hp; exact Nat.succ_le_succ hd.2, ?_⟩))))))))))
      have h1 : s.quiet.isDuplicate q = false := hd.1.1
      have h2 : s.quiet.hasFlag .rxMsg = false := hd.1.2
      simp only [State.doOutcome, headerByte_getLsbD, h1, h2, Bool.false_eq_true, if_false]
    · exact .inl ⟨_, rfl⟩
  all_goals exact .inl ⟨_, rfl⟩

end Sys2Proof.Machine
end

