-- ==== Sys2Proof/Laws/Phases.lean ====
section
/-! SUPPORT. One lemma per phase of a tick and field that the phase does not write, and the same of the whole tick. -/

namespace Sys2Proof.Machine

/-! `State.phaseCapture`. -/

@[simp] theorem State.phaseCapture_build (d : Bool) (s : State) : (s.phaseCapture d).build = s.build := by
  obtain ⟨_, _, _, _, _, h, -⟩ := State.phaseCapture_writes d s; rw [h]
@[simp] theorem State.phaseCapture_now (d : Bool) (s : State) : (s.phaseCapture d).now = s.now := by
  obtain ⟨_, _, _, _, _, h, -⟩ := State.phaseCapture_writes d s; rw [h]
@[simp] theorem State.phaseCapture_nowHiShadow (d : Bool) (s : State) : (s.phaseCapture d).nowHiShadow = s.nowHiShadow := by
  obtain ⟨_, _, _, _, _, h, -⟩ := State.phaseCapture_writes d s; rw [h]
@[simp] theorem State.phaseCapture_irqEn (d : Bool) (s : State) : (s.phaseCapture d).irqEn = s.irqEn := by
  obtain ⟨_, _, _, _, _, h, -⟩ := State.phaseCapture_writes d s; rw [h]
@[simp] theorem State.phaseCapture_errCode (d : Bool) (s : State) : (s.phaseCapture d).errCode = s.errCode := by
  obtain ⟨_, _, _, _, _, h, -⟩ := State.phaseCapture_writes d s; rw [h]
@[simp] theorem State.phaseCapture_reanchor (d : Bool) (s : State) : (s.phaseCapture d).reanchor = s.reanchor := by
  obtain ⟨_, _, _, _, _, h, -⟩ := State.phaseCapture_writes d s; rw [h]
@[simp] theorem State.phaseCapture_cfgTslot (d : Bool) (s : State) : (s.phaseCapture d).cfgTslot = s.cfgTslot := by
  obtain ⟨_, _, _, _, _, h, -⟩ := State.phaseCapture_writes d s; rw [h]
@[simp] theorem State.phaseCapture_cfgTidle (d : Bool) (s : State) : (s.phaseCapture d).cfgTidle = s.cfgTidle := by
  obtain ⟨_, _, _, _, _, h, -⟩ := State.phaseCapture_writes d s; rw [h]
@[simp] theorem State.phaseCapture_cfgTack (d : Bool) (s : State) : (s.phaseCapture d).cfgTack = s.cfgTack := by
  obtain ⟨_, _, _, _, _, h, -⟩ := State.phaseCapture_writes d s; rw [h]
@[simp] theorem State.phaseCapture_cfgMaxRetry (d : Bool) (s : State) : (s.phaseCapture d).cfgMaxRetry = s.cfgMaxRetry := by
  obtain ⟨_, _, _, _, _, h, -⟩ := State.phaseCapture_writes d s; rw [h]
@[simp] theorem State.phaseCapture_cfgAmbig (d : Bool) (s : State) : (s.phaseCapture d).cfgAmbig = s.cfgAmbig := by
  obtain ⟨_, _, _, _, _, h, -⟩ := State.phaseCapture_writes d s; rw [h]
@[simp] theorem State.phaseCapture_peerId (d : Bool) (s : State) : (s.phaseCapture d).peerId = s.peerId := by
  obtain ⟨_, _, _, _, _, h, -⟩ := State.phaseCapture_writes d s; rw [h]
@[simp] theorem State.phaseCapture_peerValid (d : Bool) (s : State) : (s.phaseCapture d).peerValid = s.peerValid := by
  obtain ⟨_, _, _, _, _, h, -⟩ := State.phaseCapture_writes d s; rw [h]
@[simp] theorem State.phaseCapture_txLen (d : Bool) (s : State) : (s.phaseCapture d).txLen = s.txLen := by
  obtain ⟨_, _, _, _, _, h, -⟩ := State.phaseCapture_writes d s; rw [h]
@[simp] theorem State.phaseCapture_mem (d : Bool) (s : State) : (s.phaseCapture d).mem = s.mem := by
  obtain ⟨_, _, _, _, _, h, -⟩ := State.phaseCapture_writes d s; rw [h]
@[simp] theorem State.phaseCapture_rxLen (d : Bool) (s : State) : (s.phaseCapture d).rxLen = s.rxLen := by
  obtain ⟨_, _, _, _, _, h, -⟩ := State.phaseCapture_writes d s; rw [h]
@[simp] theorem State.phaseCapture_txState (d : Bool) (s : State) : (s.phaseCapture d).txState = s.txState := by
  obtain ⟨_, _, _, _, _, h, -⟩ := State.phaseCapture_writes d s; rw [h]
@[simp] theorem State.phaseCapture_txIdx (d : Bool) (s : State) : (s.phaseCapture d).txIdx = s.txIdx := by
  obtain ⟨_, _, _, _, _, h, -⟩ := State.phaseCapture_writes d s; rw [h]
@[simp] theorem State.phaseCapture_txSeq (d : Bool) (s : State) : (s.phaseCapture d).txSeq = s.txSeq := by
  obtain ⟨_, _, _, _, _, h, -⟩ := State.phaseCapture_writes d s; rw [h]
@[simp] theorem State.phaseCapture_ackSeen (d : Bool) (s : State) : (s.phaseCapture d).ackSeen = s.ackSeen := by
  obtain ⟨_, _, _, _, _, h, -⟩ := State.phaseCapture_writes d s; rw [h]
@[simp] theorem State.phaseCapture_txFrame (d : Bool) (s : State) : (s.phaseCapture d).txFrame = s.txFrame := by
  obtain ⟨_, _, _, _, _, h, -⟩ := State.phaseCapture_writes d s; rw [h]
@[simp] theorem State.phaseCapture_txT0 (d : Bool) (s : State) : (s.phaseCapture d).txT0 = s.txT0 := by
  obtain ⟨_, _, _, _, _, h, -⟩ := State.phaseCapture_writes d s; rw [h]
@[simp] theorem State.phaseCapture_txDeadline (d : Bool) (s : State) : (s.phaseCapture d).txDeadline = s.txDeadline := by
  obtain ⟨_, _, _, _, _, h, -⟩ := State.phaseCapture_writes d s; rw [h]
@[simp] theorem State.phaseCapture_txRetry (d : Bool) (s : State) : (s.phaseCapture d).txRetry = s.txRetry := by
  obtain ⟨_, _, _, _, _, h, -⟩ := State.phaseCapture_writes d s; rw [h]
@[simp] theorem State.phaseCapture_txLastRetries (d : Bool) (s : State) : (s.phaseCapture d).txLastRetries = s.txLastRetries := by
  obtain ⟨_, _, _, _, _, h, -⟩ := State.phaseCapture_writes d s; rw [h]
@[simp] theorem State.phaseCapture_txResult (d : Bool) (s : State) : (s.phaseCapture d).txResult = s.txResult := by
  obtain ⟨_, _, _, _, _, h, -⟩ := State.phaseCapture_writes d s; rw [h]
@[simp] theorem State.phaseCapture_rxEn (d : Bool) (s : State) : (s.phaseCapture d).rxEn = s.rxEn := by
  obtain ⟨_, _, _, _, _, h, -⟩ := State.phaseCapture_writes d s; rw [h]
@[simp] theorem State.phaseCapture_rxSession (d : Bool) (s : State) : (s.phaseCapture d).rxSession = s.rxSession := by
  obtain ⟨_, _, _, _, _, h, -⟩ := State.phaseCapture_writes d s; rw [h]
@[simp] theorem State.phaseCapture_rxLastSeq (d : Bool) (s : State) : (s.phaseCapture d).rxLastSeq = s.rxLastSeq := by
  obtain ⟨_, _, _, _, _, h, -⟩ := State.phaseCapture_writes d s; rw [h]
@[simp] theorem State.phaseCapture_rxResult (d : Bool) (s : State) : (s.phaseCapture d).rxResult = s.rxResult := by
  obtain ⟨_, _, _, _, _, h, -⟩ := State.phaseCapture_writes d s; rw [h]
@[simp] theorem State.phaseCapture_rxAmbig (d : Bool) (s : State) : (s.phaseCapture d).rxAmbig = s.rxAmbig := by
  obtain ⟨_, _, _, _, _, h, -⟩ := State.phaseCapture_writes d s; rw [h]
@[simp] theorem State.phaseCapture_dataOut (d : Bool) (s : State) : (s.phaseCapture d).dataOut = s.dataOut := by
  obtain ⟨_, _, _, _, _, h, -⟩ := State.phaseCapture_writes d s; rw [h]
@[simp] theorem State.phaseCapture_ackOut (d : Bool) (s : State) : (s.phaseCapture d).ackOut = s.ackOut := by
  obtain ⟨_, _, _, _, _, h, -⟩ := State.phaseCapture_writes d s; rw [h]
@[simp] theorem State.phaseCapture_response (d : Bool) (s : State) : (s.phaseCapture d).response = s.response := by
  obtain ⟨_, _, _, _, _, h, -⟩ := State.phaseCapture_writes d s; rw [h]
@[simp] theorem State.phaseCapture_script (d : Bool) (s : State) : (s.phaseCapture d).script = s.script := by
  obtain ⟨_, _, _, _, _, h, -⟩ := State.phaseCapture_writes d s; rw [h]

/-! `State.phaseAck`. -/

@[simp] theorem State.phaseAck_build (a : Bool) (s : State) : (s.phaseAck a).build = s.build := by
  obtain ⟨_, h, -⟩ := State.phaseAck_writes a s; rw [h]
@[simp] theorem State.phaseAck_now (a : Bool) (s : State) : (s.phaseAck a).now = s.now := by
  obtain ⟨_, h, -⟩ := State.phaseAck_writes a s; rw [h]
@[simp] theorem State.phaseAck_nowHiShadow (a : Bool) (s : State) : (s.phaseAck a).nowHiShadow = s.nowHiShadow := by
  obtain ⟨_, h, -⟩ := State.phaseAck_writes a s; rw [h]
@[simp] theorem State.phaseAck_flags (a : Bool) (s : State) : (s.phaseAck a).flags = s.flags := by
  obtain ⟨_, h, -⟩ := State.phaseAck_writes a s; rw [h]
@[simp] theorem State.phaseAck_irqEn (a : Bool) (s : State) : (s.phaseAck a).irqEn = s.irqEn := by
  obtain ⟨_, h, -⟩ := State.phaseAck_writes a s; rw [h]
@[simp] theorem State.phaseAck_errCode (a : Bool) (s : State) : (s.phaseAck a).errCode = s.errCode := by
  obtain ⟨_, h, -⟩ := State.phaseAck_writes a s; rw [h]
@[simp] theorem State.phaseAck_reanchor (a : Bool) (s : State) : (s.phaseAck a).reanchor = s.reanchor := by
  obtain ⟨_, h, -⟩ := State.phaseAck_writes a s; rw [h]
@[simp] theorem State.phaseAck_cfgTslot (a : Bool) (s : State) : (s.phaseAck a).cfgTslot = s.cfgTslot := by
  obtain ⟨_, h, -⟩ := State.phaseAck_writes a s; rw [h]
@[simp] theorem State.phaseAck_cfgTidle (a : Bool) (s : State) : (s.phaseAck a).cfgTidle = s.cfgTidle := by
  obtain ⟨_, h, -⟩ := State.phaseAck_writes a s; rw [h]
@[simp] theorem State.phaseAck_cfgTack (a : Bool) (s : State) : (s.phaseAck a).cfgTack = s.cfgTack := by
  obtain ⟨_, h, -⟩ := State.phaseAck_writes a s; rw [h]
@[simp] theorem State.phaseAck_cfgMaxRetry (a : Bool) (s : State) : (s.phaseAck a).cfgMaxRetry = s.cfgMaxRetry := by
  obtain ⟨_, h, -⟩ := State.phaseAck_writes a s; rw [h]
@[simp] theorem State.phaseAck_cfgAmbig (a : Bool) (s : State) : (s.phaseAck a).cfgAmbig = s.cfgAmbig := by
  obtain ⟨_, h, -⟩ := State.phaseAck_writes a s; rw [h]
@[simp] theorem State.phaseAck_peerId (a : Bool) (s : State) : (s.phaseAck a).peerId = s.peerId := by
  obtain ⟨_, h, -⟩ := State.phaseAck_writes a s; rw [h]
@[simp] theorem State.phaseAck_peerValid (a : Bool) (s : State) : (s.phaseAck a).peerValid = s.peerValid := by
  obtain ⟨_, h, -⟩ := State.phaseAck_writes a s; rw [h]
@[simp] theorem State.phaseAck_txLen (a : Bool) (s : State) : (s.phaseAck a).txLen = s.txLen := by
  obtain ⟨_, h, -⟩ := State.phaseAck_writes a s; rw [h]
@[simp] theorem State.phaseAck_mem (a : Bool) (s : State) : (s.phaseAck a).mem = s.mem := by
  obtain ⟨_, h, -⟩ := State.phaseAck_writes a s; rw [h]
@[simp] theorem State.phaseAck_rxLen (a : Bool) (s : State) : (s.phaseAck a).rxLen = s.rxLen := by
  obtain ⟨_, h, -⟩ := State.phaseAck_writes a s; rw [h]
@[simp] theorem State.phaseAck_txState (a : Bool) (s : State) : (s.phaseAck a).txState = s.txState := by
  obtain ⟨_, h, -⟩ := State.phaseAck_writes a s; rw [h]
@[simp] theorem State.phaseAck_txIdx (a : Bool) (s : State) : (s.phaseAck a).txIdx = s.txIdx := by
  obtain ⟨_, h, -⟩ := State.phaseAck_writes a s; rw [h]
@[simp] theorem State.phaseAck_txSeq (a : Bool) (s : State) : (s.phaseAck a).txSeq = s.txSeq := by
  obtain ⟨_, h, -⟩ := State.phaseAck_writes a s; rw [h]
@[simp] theorem State.phaseAck_txFrame (a : Bool) (s : State) : (s.phaseAck a).txFrame = s.txFrame := by
  obtain ⟨_, h, -⟩ := State.phaseAck_writes a s; rw [h]
@[simp] theorem State.phaseAck_txT0 (a : Bool) (s : State) : (s.phaseAck a).txT0 = s.txT0 := by
  obtain ⟨_, h, -⟩ := State.phaseAck_writes a s; rw [h]
@[simp] theorem State.phaseAck_txDeadline (a : Bool) (s : State) : (s.phaseAck a).txDeadline = s.txDeadline := by
  obtain ⟨_, h, -⟩ := State.phaseAck_writes a s; rw [h]
@[simp] theorem State.phaseAck_txRetry (a : Bool) (s : State) : (s.phaseAck a).txRetry = s.txRetry := by
  obtain ⟨_, h, -⟩ := State.phaseAck_writes a s; rw [h]
@[simp] theorem State.phaseAck_txLastRetries (a : Bool) (s : State) : (s.phaseAck a).txLastRetries = s.txLastRetries := by
  obtain ⟨_, h, -⟩ := State.phaseAck_writes a s; rw [h]
@[simp] theorem State.phaseAck_txResult (a : Bool) (s : State) : (s.phaseAck a).txResult = s.txResult := by
  obtain ⟨_, h, -⟩ := State.phaseAck_writes a s; rw [h]
@[simp] theorem State.phaseAck_rxEn (a : Bool) (s : State) : (s.phaseAck a).rxEn = s.rxEn := by
  obtain ⟨_, h, -⟩ := State.phaseAck_writes a s; rw [h]
@[simp] theorem State.phaseAck_rxState (a : Bool) (s : State) : (s.phaseAck a).rxState = s.rxState := by
  obtain ⟨_, h, -⟩ := State.phaseAck_writes a s; rw [h]
@[simp] theorem State.phaseAck_rxTs (a : Bool) (s : State) : (s.phaseAck a).rxTs = s.rxTs := by
  obtain ⟨_, h, -⟩ := State.phaseAck_writes a s; rw [h]
@[simp] theorem State.phaseAck_rxTfirst (a : Bool) (s : State) : (s.phaseAck a).rxTfirst = s.rxTfirst := by
  obtain ⟨_, h, -⟩ := State.phaseAck_writes a s; rw [h]
@[simp] theorem State.phaseAck_rxTlast (a : Bool) (s : State) : (s.phaseAck a).rxTlast = s.rxTlast := by
  obtain ⟨_, h, -⟩ := State.phaseAck_writes a s; rw [h]
@[simp] theorem State.phaseAck_rxSession (a : Bool) (s : State) : (s.phaseAck a).rxSession = s.rxSession := by
  obtain ⟨_, h, -⟩ := State.phaseAck_writes a s; rw [h]
@[simp] theorem State.phaseAck_rxLastSeq (a : Bool) (s : State) : (s.phaseAck a).rxLastSeq = s.rxLastSeq := by
  obtain ⟨_, h, -⟩ := State.phaseAck_writes a s; rw [h]
@[simp] theorem State.phaseAck_rxResult (a : Bool) (s : State) : (s.phaseAck a).rxResult = s.rxResult := by
  obtain ⟨_, h, -⟩ := State.phaseAck_writes a s; rw [h]
@[simp] theorem State.phaseAck_rxAmbig (a : Bool) (s : State) : (s.phaseAck a).rxAmbig = s.rxAmbig := by
  obtain ⟨_, h, -⟩ := State.phaseAck_writes a s; rw [h]
@[simp] theorem State.phaseAck_dataOut (a : Bool) (s : State) : (s.phaseAck a).dataOut = s.dataOut := by
  obtain ⟨_, h, -⟩ := State.phaseAck_writes a s; rw [h]
@[simp] theorem State.phaseAck_ackOut (a : Bool) (s : State) : (s.phaseAck a).ackOut = s.ackOut := by
  obtain ⟨_, h, -⟩ := State.phaseAck_writes a s; rw [h]
@[simp] theorem State.phaseAck_response (a : Bool) (s : State) : (s.phaseAck a).response = s.response := by
  obtain ⟨_, h, -⟩ := State.phaseAck_writes a s; rw [h]
@[simp] theorem State.phaseAck_script (a : Bool) (s : State) : (s.phaseAck a).script = s.script := by
  obtain ⟨_, h, -⟩ := State.phaseAck_writes a s; rw [h]

/-! `State.doOutcome`. -/

@[simp] theorem State.doOutcome_build (v : Verdict) (s : State) : (s.doOutcome v).build = s.build := by
  obtain ⟨_, _, _, _, _, _, _, h⟩ := State.doOutcome_writes v s; rw [h]
@[simp] theorem State.doOutcome_now (v : Verdict) (s : State) : (s.doOutcome v).now = s.now := by
  obtain ⟨_, _, _, _, _, _, _, h⟩ := State.doOutcome_writes v s; rw [h]
@[simp] theorem State.doOutcome_nowHiShadow (v : Verdict) (s : State) : (s.doOutcome v).nowHiShadow = s.nowHiShadow := by
  obtain ⟨_, _, _, _, _, _, _, h⟩ := State.doOutcome_writes v s; rw [h]
@[simp] theorem State.doOutcome_irqEn (v : Verdict) (s : State) : (s.doOutcome v).irqEn = s.irqEn := by
  obtain ⟨_, _, _, _, _, _, _, h⟩ := State.doOutcome_writes v s; rw [h]
@[simp] theorem State.doOutcome_errCode (v : Verdict) (s : State) : (s.doOutcome v).errCode = s.errCode := by
  obtain ⟨_, _, _, _, _, _, _, h⟩ := State.doOutcome_writes v s; rw [h]
@[simp] theorem State.doOutcome_reanchor (v : Verdict) (s : State) : (s.doOutcome v).reanchor = s.reanchor := by
  obtain ⟨_, _, _, _, _, _, _, h⟩ := State.doOutcome_writes v s; rw [h]
@[simp] theorem State.doOutcome_cfgTslot (v : Verdict) (s : State) : (s.doOutcome v).cfgTslot = s.cfgTslot := by
  obtain ⟨_, _, _, _, _, _, _, h⟩ := State.doOutcome_writes v s; rw [h]
@[simp] theorem State.doOutcome_cfgTidle (v : Verdict) (s : State) : (s.doOutcome v).cfgTidle = s.cfgTidle := by
  obtain ⟨_, _, _, _, _, _, _, h⟩ := State.doOutcome_writes v s; rw [h]
@[simp] theorem State.doOutcome_cfgTack (v : Verdict) (s : State) : (s.doOutcome v).cfgTack = s.cfgTack := by
  obtain ⟨_, _, _, _, _, _, _, h⟩ := State.doOutcome_writes v s; rw [h]
@[simp] theorem State.doOutcome_cfgMaxRetry (v : Verdict) (s : State) : (s.doOutcome v).cfgMaxRetry = s.cfgMaxRetry := by
  obtain ⟨_, _, _, _, _, _, _, h⟩ := State.doOutcome_writes v s; rw [h]
@[simp] theorem State.doOutcome_cfgAmbig (v : Verdict) (s : State) : (s.doOutcome v).cfgAmbig = s.cfgAmbig := by
  obtain ⟨_, _, _, _, _, _, _, h⟩ := State.doOutcome_writes v s; rw [h]
@[simp] theorem State.doOutcome_peerId (v : Verdict) (s : State) : (s.doOutcome v).peerId = s.peerId := by
  obtain ⟨_, _, _, _, _, _, _, h⟩ := State.doOutcome_writes v s; rw [h]
@[simp] theorem State.doOutcome_peerValid (v : Verdict) (s : State) : (s.doOutcome v).peerValid = s.peerValid := by
  obtain ⟨_, _, _, _, _, _, _, h⟩ := State.doOutcome_writes v s; rw [h]
@[simp] theorem State.doOutcome_txLen (v : Verdict) (s : State) : (s.doOutcome v).txLen = s.txLen := by
  obtain ⟨_, _, _, _, _, _, _, h⟩ := State.doOutcome_writes v s; rw [h]
@[simp] theorem State.doOutcome_txState (v : Verdict) (s : State) : (s.doOutcome v).txState = s.txState := by
  obtain ⟨_, _, _, _, _, _, _, h⟩ := State.doOutcome_writes v s; rw [h]
@[simp] theorem State.doOutcome_txIdx (v : Verdict) (s : State) : (s.doOutcome v).txIdx = s.txIdx := by
  obtain ⟨_, _, _, _, _, _, _, h⟩ := State.doOutcome_writes v s; rw [h]
@[simp] theorem State.doOutcome_txSeq (v : Verdict) (s : State) : (s.doOutcome v).txSeq = s.txSeq := by
  obtain ⟨_, _, _, _, _, _, _, h⟩ := State.doOutcome_writes v s; rw [h]
@[simp] theorem State.doOutcome_ackSeen (v : Verdict) (s : State) : (s.doOutcome v).ackSeen = s.ackSeen := by
  obtain ⟨_, _, _, _, _, _, _, h⟩ := State.doOutcome_writes v s; rw [h]
@[simp] theorem State.doOutcome_txFrame (v : Verdict) (s : State) : (s.doOutcome v).txFrame = s.txFrame := by
  obtain ⟨_, _, _, _, _, _, _, h⟩ := State.doOutcome_writes v s; rw [h]
@[simp] theorem State.doOutcome_txT0 (v : Verdict) (s : State) : (s.doOutcome v).txT0 = s.txT0 := by
  obtain ⟨_, _, _, _, _, _, _, h⟩ := State.doOutcome_writes v s; rw [h]
@[simp] theorem State.doOutcome_txDeadline (v : Verdict) (s : State) : (s.doOutcome v).txDeadline = s.txDeadline := by
  obtain ⟨_, _, _, _, _, _, _, h⟩ := State.doOutcome_writes v s; rw [h]
@[simp] theorem State.doOutcome_txRetry (v : Verdict) (s : State) : (s.doOutcome v).txRetry = s.txRetry := by
  obtain ⟨_, _, _, _, _, _, _, h⟩ := State.doOutcome_writes v s; rw [h]
@[simp] theorem State.doOutcome_txLastRetries (v : Verdict) (s : State) : (s.doOutcome v).txLastRetries = s.txLastRetries := by
  obtain ⟨_, _, _, _, _, _, _, h⟩ := State.doOutcome_writes v s; rw [h]
@[simp] theorem State.doOutcome_txResult (v : Verdict) (s : State) : (s.doOutcome v).txResult = s.txResult := by
  obtain ⟨_, _, _, _, _, _, _, h⟩ := State.doOutcome_writes v s; rw [h]
@[simp] theorem State.doOutcome_rxEn (v : Verdict) (s : State) : (s.doOutcome v).rxEn = s.rxEn := by
  obtain ⟨_, _, _, _, _, _, _, h⟩ := State.doOutcome_writes v s; rw [h]
@[simp] theorem State.doOutcome_rxState (v : Verdict) (s : State) : (s.doOutcome v).rxState = s.rxState := by
  obtain ⟨_, _, _, _, _, _, _, h⟩ := State.doOutcome_writes v s; rw [h]
@[simp] theorem State.doOutcome_rxTs (v : Verdict) (s : State) : (s.doOutcome v).rxTs = s.rxTs := by
  obtain ⟨_, _, _, _, _, _, _, h⟩ := State.doOutcome_writes v s; rw [h]
@[simp] theorem State.doOutcome_rxTfirst (v : Verdict) (s : State) : (s.doOutcome v).rxTfirst = s.rxTfirst := by
  obtain ⟨_, _, _, _, _, _, _, h⟩ := State.doOutcome_writes v s; rw [h]
@[simp] theorem State.doOutcome_rxTlast (v : Verdict) (s : State) : (s.doOutcome v).rxTlast = s.rxTlast := by
  obtain ⟨_, _, _, _, _, _, _, h⟩ := State.doOutcome_writes v s; rw [h]
@[simp] theorem State.doOutcome_rxAmbig (v : Verdict) (s : State) : (s.doOutcome v).rxAmbig = s.rxAmbig := by
  obtain ⟨_, _, _, _, _, _, _, h⟩ := State.doOutcome_writes v s; rw [h]
@[simp] theorem State.doOutcome_dataOut (v : Verdict) (s : State) : (s.doOutcome v).dataOut = s.dataOut := by
  obtain ⟨_, _, _, _, _, _, _, h⟩ := State.doOutcome_writes v s; rw [h]
@[simp] theorem State.doOutcome_response (v : Verdict) (s : State) : (s.doOutcome v).response = s.response := by
  obtain ⟨_, _, _, _, _, _, _, h⟩ := State.doOutcome_writes v s; rw [h]
@[simp] theorem State.doOutcome_script (v : Verdict) (s : State) : (s.doOutcome v).script = s.script := by
  obtain ⟨_, _, _, _, _, _, _, h⟩ := State.doOutcome_writes v s; rw [h]

/-! `State.phaseClose`. -/

@[simp] theorem State.phaseClose_build (s : State) : (s.phaseClose).build = s.build := by
  obtain ⟨_, _, _, _, _, _, _, _, _, _, h⟩ := State.phaseClose_writes s; rw [h]
@[simp] theorem State.phaseClose_now (s : State) : (s.phaseClose).now = s.now := by
  obtain ⟨_, _, _, _, _, _, _, _, _, _, h⟩ := State.phaseClose_writes s; rw [h]
@[simp] theorem State.phaseClose_nowHiShadow (s : State) : (s.phaseClose).nowHiShadow = s.nowHiShadow := by
  obtain ⟨_, _, _, _, _, _, _, _, _, _, h⟩ := State.phaseClose_writes s; rw [h]
@[simp] theorem State.phaseClose_irqEn (s : State) : (s.phaseClose).irqEn = s.irqEn := by
  obtain ⟨_, _, _, _, _, _, _, _, _, _, h⟩ := State.phaseClose_writes s; rw [h]
@[simp] theorem State.phaseClose_errCode (s : State) : (s.phaseClose).errCode = s.errCode := by
  obtain ⟨_, _, _, _, _, _, _, _, _, _, h⟩ := State.phaseClose_writes s; rw [h]
@[simp] theorem State.phaseClose_reanchor (s : State) : (s.phaseClose).reanchor = s.reanchor := by
  obtain ⟨_, _, _, _, _, _, _, _, _, _, h⟩ := State.phaseClose_writes s; rw [h]
@[simp] theorem State.phaseClose_cfgTslot (s : State) : (s.phaseClose).cfgTslot = s.cfgTslot := by
  obtain ⟨_, _, _, _, _, _, _, _, _, _, h⟩ := State.phaseClose_writes s; rw [h]
@[simp] theorem State.phaseClose_cfgTidle (s : State) : (s.phaseClose).cfgTidle = s.cfgTidle := by
  obtain ⟨_, _, _, _, _, _, _, _, _, _, h⟩ := State.phaseClose_writes s; rw [h]
@[simp] theorem State.phaseClose_cfgTack (s : State) : (s.phaseClose).cfgTack = s.cfgTack := by
  obtain ⟨_, _, _, _, _, _, _, _, _, _, h⟩ := State.phaseClose_writes s; rw [h]
@[simp] theorem State.phaseClose_cfgMaxRetry (s : State) : (s.phaseClose).cfgMaxRetry = s.cfgMaxRetry := by
  obtain ⟨_, _, _, _, _, _, _, _, _, _, h⟩ := State.phaseClose_writes s; rw [h]
@[simp] theorem State.phaseClose_cfgAmbig (s : State) : (s.phaseClose).cfgAmbig = s.cfgAmbig := by
  obtain ⟨_, _, _, _, _, _, _, _, _, _, h⟩ := State.phaseClose_writes s; rw [h]
@[simp] theorem State.phaseClose_peerId (s : State) : (s.phaseClose).peerId = s.peerId := by
  obtain ⟨_, _, _, _, _, _, _, _, _, _, h⟩ := State.phaseClose_writes s; rw [h]
@[simp] theorem State.phaseClose_peerValid (s : State) : (s.phaseClose).peerValid = s.peerValid := by
  obtain ⟨_, _, _, _, _, _, _, _, _, _, h⟩ := State.phaseClose_writes s; rw [h]
@[simp] theorem State.phaseClose_txLen (s : State) : (s.phaseClose).txLen = s.txLen := by
  obtain ⟨_, _, _, _, _, _, _, _, _, _, h⟩ := State.phaseClose_writes s; rw [h]
@[simp] theorem State.phaseClose_txState (s : State) : (s.phaseClose).txState = s.txState := by
  obtain ⟨_, _, _, _, _, _, _, _, _, _, h⟩ := State.phaseClose_writes s; rw [h]
@[simp] theorem State.phaseClose_txIdx (s : State) : (s.phaseClose).txIdx = s.txIdx := by
  obtain ⟨_, _, _, _, _, _, _, _, _, _, h⟩ := State.phaseClose_writes s; rw [h]
@[simp] theorem State.phaseClose_txSeq (s : State) : (s.phaseClose).txSeq = s.txSeq := by
  obtain ⟨_, _, _, _, _, _, _, _, _, _, h⟩ := State.phaseClose_writes s; rw [h]
@[simp] theorem State.phaseClose_ackSeen (s : State) : (s.phaseClose).ackSeen = s.ackSeen := by
  obtain ⟨_, _, _, _, _, _, _, _, _, _, h⟩ := State.phaseClose_writes s; rw [h]
@[simp] theorem State.phaseClose_txFrame (s : State) : (s.phaseClose).txFrame = s.txFrame := by
  obtain ⟨_, _, _, _, _, _, _, _, _, _, h⟩ := State.phaseClose_writes s; rw [h]
@[simp] theorem State.phaseClose_txT0 (s : State) : (s.phaseClose).txT0 = s.txT0 := by
  obtain ⟨_, _, _, _, _, _, _, _, _, _, h⟩ := State.phaseClose_writes s; rw [h]
@[simp] theorem State.phaseClose_txDeadline (s : State) : (s.phaseClose).txDeadline = s.txDeadline := by
  obtain ⟨_, _, _, _, _, _, _, _, _, _, h⟩ := State.phaseClose_writes s; rw [h]
@[simp] theorem State.phaseClose_txRetry (s : State) : (s.phaseClose).txRetry = s.txRetry := by
  obtain ⟨_, _, _, _, _, _, _, _, _, _, h⟩ := State.phaseClose_writes s; rw [h]
@[simp] theorem State.phaseClose_txLastRetries (s : State) : (s.phaseClose).txLastRetries = s.txLastRetries := by
  obtain ⟨_, _, _, _, _, _, _, _, _, _, h⟩ := State.phaseClose_writes s; rw [h]
@[simp] theorem State.phaseClose_txResult (s : State) : (s.phaseClose).txResult = s.txResult := by
  obtain ⟨_, _, _, _, _, _, _, _, _, _, h⟩ := State.phaseClose_writes s; rw [h]
@[simp] theorem State.phaseClose_rxEn (s : State) : (s.phaseClose).rxEn = s.rxEn := by
  obtain ⟨_, _, _, _, _, _, _, _, _, _, h⟩ := State.phaseClose_writes s; rw [h]
@[simp] theorem State.phaseClose_rxTfirst (s : State) : (s.phaseClose).rxTfirst = s.rxTfirst := by
  obtain ⟨_, _, _, _, _, _, _, _, _, _, h⟩ := State.phaseClose_writes s; rw [h]
@[simp] theorem State.phaseClose_rxTlast (s : State) : (s.phaseClose).rxTlast = s.rxTlast := by
  obtain ⟨_, _, _, _, _, _, _, _, _, _, h⟩ := State.phaseClose_writes s; rw [h]
@[simp] theorem State.phaseClose_dataOut (s : State) : (s.phaseClose).dataOut = s.dataOut := by
  obtain ⟨_, _, _, _, _, _, _, _, _, _, h⟩ := State.phaseClose_writes s; rw [h]
@[simp] theorem State.phaseClose_response (s : State) : (s.phaseClose).response = s.response := by
  obtain ⟨_, _, _, _, _, _, _, _, _, _, h⟩ := State.phaseClose_writes s; rw [h]
@[simp] theorem State.phaseClose_script (s : State) : (s.phaseClose).script = s.script := by
  obtain ⟨_, _, _, _, _, _, _, _, _, _, h⟩ := State.phaseClose_writes s; rw [h]

/-! `State.phaseTx`. -/

@[simp] theorem State.phaseTx_build (s : State) : (s.phaseTx).build = s.build := by
  obtain ⟨_, _, _, _, _, _, _, _, _, _, _, h, -⟩ := State.phaseTx_writes s; rw [h]
@[simp] theorem State.phaseTx_now (s : State) : (s.phaseTx).now = s.now := by
  obtain ⟨_, _, _, _, _, _, _, _, _, _, _, h, -⟩ := State.phaseTx_writes s; rw [h]
@[simp] theorem State.phaseTx_nowHiShadow (s : State) : (s.phaseTx).nowHiShadow = s.nowHiShadow := by
  obtain ⟨_, _, _, _, _, _, _, _, _, _, _, h, -⟩ := State.phaseTx_writes s; rw [h]
@[simp] theorem State.phaseTx_irqEn (s : State) : (s.phaseTx).irqEn = s.irqEn := by
  obtain ⟨_, _, _, _, _, _, _, _, _, _, _, h, -⟩ := State.phaseTx_writes s; rw [h]
@[simp] theorem State.phaseTx_errCode (s : State) : (s.phaseTx).errCode = s.errCode := by
  obtain ⟨_, _, _, _, _, _, _, _, _, _, _, h, -⟩ := State.phaseTx_writes s; rw [h]
@[simp] theorem State.phaseTx_reanchor (s : State) : (s.phaseTx).reanchor = s.reanchor := by
  obtain ⟨_, _, _, _, _, _, _, _, _, _, _, h, -⟩ := State.phaseTx_writes s; rw [h]
@[simp] theorem State.phaseTx_cfgTslot (s : State) : (s.phaseTx).cfgTslot = s.cfgTslot := by
  obtain ⟨_, _, _, _, _, _, _, _, _, _, _, h, -⟩ := State.phaseTx_writes s; rw [h]
@[simp] theorem State.phaseTx_cfgTidle (s : State) : (s.phaseTx).cfgTidle = s.cfgTidle := by
  obtain ⟨_, _, _, _, _, _, _, _, _, _, _, h, -⟩ := State.phaseTx_writes s; rw [h]
@[simp] theorem State.phaseTx_cfgTack (s : State) : (s.phaseTx).cfgTack = s.cfgTack := by
  obtain ⟨_, _, _, _, _, _, _, _, _, _, _, h, -⟩ := State.phaseTx_writes s; rw [h]
@[simp] theorem State.phaseTx_cfgMaxRetry (s : State) : (s.phaseTx).cfgMaxRetry = s.cfgMaxRetry := by
  obtain ⟨_, _, _, _, _, _, _, _, _, _, _, h, -⟩ := State.phaseTx_writes s; rw [h]
@[simp] theorem State.phaseTx_cfgAmbig (s : State) : (s.phaseTx).cfgAmbig = s.cfgAmbig := by
  obtain ⟨_, _, _, _, _, _, _, _, _, _, _, h, -⟩ := State.phaseTx_writes s; rw [h]
@[simp] theorem State.phaseTx_peerId (s : State) : (s.phaseTx).peerId = s.peerId := by
  obtain ⟨_, _, _, _, _, _, _, _, _, _, _, h, -⟩ := State.phaseTx_writes s; rw [h]
@[simp] theorem State.phaseTx_peerValid (s : State) : (s.phaseTx).peerValid = s.peerValid := by
  obtain ⟨_, _, _, _, _, _, _, _, _, _, _, h, -⟩ := State.phaseTx_writes s; rw [h]
@[simp] theorem State.phaseTx_txLen (s : State) : (s.phaseTx).txLen = s.txLen := by
  obtain ⟨_, _, _, _, _, _, _, _, _, _, _, h, -⟩ := State.phaseTx_writes s; rw [h]
@[simp] theorem State.phaseTx_mem (s : State) : (s.phaseTx).mem = s.mem := by
  obtain ⟨_, _, _, _, _, _, _, _, _, _, _, h, -⟩ := State.phaseTx_writes s; rw [h]
@[simp] theorem State.phaseTx_rxLen (s : State) : (s.phaseTx).rxLen = s.rxLen := by
  obtain ⟨_, _, _, _, _, _, _, _, _, _, _, h, -⟩ := State.phaseTx_writes s; rw [h]
@[simp] theorem State.phaseTx_txFrame (s : State) : (s.phaseTx).txFrame = s.txFrame := by
  obtain ⟨_, _, _, _, _, _, _, _, _, _, _, h, -⟩ := State.phaseTx_writes s; rw [h]
@[simp] theorem State.phaseTx_rxEn (s : State) : (s.phaseTx).rxEn = s.rxEn := by
  obtain ⟨_, _, _, _, _, _, _, _, _, _, _, h, -⟩ := State.phaseTx_writes s; rw [h]
@[simp] theorem State.phaseTx_rxState (s : State) : (s.phaseTx).rxState = s.rxState := by
  obtain ⟨_, _, _, _, _, _, _, _, _, _, _, h, -⟩ := State.phaseTx_writes s; rw [h]
@[simp] theorem State.phaseTx_rxTs (s : State) : (s.phaseTx).rxTs = s.rxTs := by
  obtain ⟨_, _, _, _, _, _, _, _, _, _, _, h, -⟩ := State.phaseTx_writes s; rw [h]
@[simp] theorem State.phaseTx_rxTfirst (s : State) : (s.phaseTx).rxTfirst = s.rxTfirst := by
  obtain ⟨_, _, _, _, _, _, _, _, _, _, _, h, -⟩ := State.phaseTx_writes s; rw [h]
@[simp] theorem State.phaseTx_rxTlast (s : State) : (s.phaseTx).rxTlast = s.rxTlast := by
  obtain ⟨_, _, _, _, _, _, _, _, _, _, _, h, -⟩ := State.phaseTx_writes s; rw [h]
@[simp] theorem State.phaseTx_rxSession (s : State) : (s.phaseTx).rxSession = s.rxSession := by
  obtain ⟨_, _, _, _, _, _, _, _, _, _, _, h, -⟩ := State.phaseTx_writes s; rw [h]
@[simp] theorem State.phaseTx_rxLastSeq (s : State) : (s.phaseTx).rxLastSeq = s.rxLastSeq := by
  obtain ⟨_, _, _, _, _, _, _, _, _, _, _, h, -⟩ := State.phaseTx_writes s; rw [h]
@[simp] theorem State.phaseTx_rxResult (s : State) : (s.phaseTx).rxResult = s.rxResult := by
  obtain ⟨_, _, _, _, _, _, _, _, _, _, _, h, -⟩ := State.phaseTx_writes s; rw [h]
@[simp] theorem State.phaseTx_rxAmbig (s : State) : (s.phaseTx).rxAmbig = s.rxAmbig := by
  obtain ⟨_, _, _, _, _, _, _, _, _, _, _, h, -⟩ := State.phaseTx_writes s; rw [h]
@[simp] theorem State.phaseTx_ackOut (s : State) : (s.phaseTx).ackOut = s.ackOut := by
  obtain ⟨_, _, _, _, _, _, _, _, _, _, _, h, -⟩ := State.phaseTx_writes s; rw [h]
@[simp] theorem State.phaseTx_response (s : State) : (s.phaseTx).response = s.response := by
  obtain ⟨_, _, _, _, _, _, _, _, _, _, _, h, -⟩ := State.phaseTx_writes s; rw [h]
@[simp] theorem State.phaseTx_script (s : State) : (s.phaseTx).script = s.script := by
  obtain ⟨_, _, _, _, _, _, _, _, _, _, _, h, -⟩ := State.phaseTx_writes s; rw [h]

/-! The whole tick. -/

@[simp] theorem State.tickPhases_build (d a : Bool) (s : State) : (s.tickPhases d a).build = s.build := by
  simp [State.tickPhases]
@[simp] theorem State.tickPhases_now (d a : Bool) (s : State) : (s.tickPhases d a).now = s.now := by
  simp [State.tickPhases]
@[simp] theorem State.tickPhases_nowHiShadow (d a : Bool) (s : State) : (s.tickPhases d a).nowHiShadow = s.nowHiShadow := by
  simp [State.tickPhases]
@[simp] theorem State.tickPhases_irqEn (d a : Bool) (s : State) : (s.tickPhases d a).irqEn = s.irqEn := by
  simp [State.tickPhases]
@[simp] theorem State.tickPhases_errCode (d a : Bool) (s : State) : (s.tickPhases d a).errCode = s.errCode := by
  simp [State.tickPhases]
@[simp] theorem State.tickPhases_reanchor (d a : Bool) (s : State) : (s.tickPhases d a).reanchor = s.reanchor := by
  simp [State.tickPhases]
@[simp] theorem State.tickPhases_cfgTslot (d a : Bool) (s : State) : (s.tickPhases d a).cfgTslot = s.cfgTslot := by
  simp [State.tickPhases]
@[simp] theorem State.tickPhases_cfgTidle (d a : Bool) (s : State) : (s.tickPhases d a).cfgTidle = s.cfgTidle := by
  simp [State.tickPhases]
@[simp] theorem State.tickPhases_cfgTack (d a : Bool) (s : State) : (s.tickPhases d a).cfgTack = s.cfgTack := by
  simp [State.tickPhases]
@[simp] theorem State.tickPhases_cfgMaxRetry (d a : Bool) (s : State) : (s.tickPhases d a).cfgMaxRetry = s.cfgMaxRetry := by
  simp [State.tickPhases]
@[simp] theorem State.tickPhases_cfgAmbig (d a : Bool) (s : State) : (s.tickPhases d a).cfgAmbig = s.cfgAmbig := by
  simp [State.tickPhases]
@[simp] theorem State.tickPhases_peerId (d a : Bool) (s : State) : (s.tickPhases d a).peerId = s.peerId := by
  simp [State.tickPhases]
@[simp] theorem State.tickPhases_peerValid (d a : Bool) (s : State) : (s.tickPhases d a).peerValid = s.peerValid := by
  simp [State.tickPhases]
@[simp] theorem State.tickPhases_txLen (d a : Bool) (s : State) : (s.tickPhases d a).txLen = s.txLen := by
  simp [State.tickPhases]
@[simp] theorem State.tickPhases_txFrame (d a : Bool) (s : State) : (s.tickPhases d a).txFrame = s.txFrame := by
  simp [State.tickPhases]
@[simp] theorem State.tickPhases_rxEn (d a : Bool) (s : State) : (s.tickPhases d a).rxEn = s.rxEn := by
  simp [State.tickPhases]
@[simp] theorem State.tickPhases_script (d a : Bool) (s : State) : (s.tickPhases d a).script = s.script := by
  simp [State.tickPhases]

/-- When a tick answers a next state, and which (20_memory.md R80, 70_reset_and_hazards.md R304). -/
theorem execTick_next {d a : Bool} {s t : State} (h : execTick d a s = .next t) :
    s.timeOk = true ∧ t = { s.tickPhases d a with now := s.now + 1 } := by
  simp only [execTick] at h
  split at h
  · exact ⟨‹_›, (Host.Outcome.next.inj h).symm⟩
  · cases h

end Sys2Proof.Machine
end

