-- ==== Sys2Proof/Laws/Flags.lean ====
section
/-! SUPPORT. `FLAGS` through the shared operations: the phases only set flags, and which ones (10_state.md R24). -/

namespace Sys2Proof.Machine

@[simp] theorem State.hasFlag_answer (f : Flag) (r : Response) (s : State) : (s.answer r).hasFlag f = s.hasFlag f := rfl

/-- A flag after a mask was set. -/
theorem State.hasFlag_setMask {f : Flag} {s t : State} {m : BitVec 8} (h : t.flags = s.flags ||| m) :
    t.hasFlag f = (s.hasFlag f || m.getLsbD f.bit) := by
  simp only [State.hasFlag, h, BitVec.getLsbD_or]

/-- A flag after a mask was cleared. -/
theorem State.hasFlag_clearMask {f : Flag} {s t : State} {m : BitVec 8} (h : t.flags = s.flags &&& ~~~m) :
    t.hasFlag f = (s.hasFlag f && !m.getLsbD f.bit) := by
  have : f.bit < 8 := by cases f <;> decide
  simp only [State.hasFlag, h, BitVec.getLsbD_and, BitVec.getLsbD_not, this, decide_true, Bool.true_and]

@[simp] theorem State.hasFlag_setFlag (f g : Flag) (s : State) :
    (s.setFlag g).hasFlag f = (s.hasFlag f || f == g) := by
  rw [State.hasFlag_setMask (s := s) (m := g.mask) rfl]
  congr 1
  cases f <;> cases g <;> rfl

/-- Phase P1 sets no flag but `RX_OVF`. -/
theorem State.phaseCapture_flags (d : Bool) (s : State) :
    ∃ m, (s.phaseCapture d).flags = s.flags ||| m ∧ m &&& 0xDF#8 = 0#8 := by
  obtain ⟨rs, ts, tf, tl, fl, e, h | h⟩ := s.phaseCapture_writes d <;> rw [e, h]
  · exact ⟨0#8, by simp, by decide⟩
  · exact ⟨_, rfl, by decide⟩

/-- The outcome of a decode attempt sets no flag but `RX_MSG`, `RX_DUP` and `RX_ERR`. -/
theorem State.doOutcome_flags (v : Verdict) (s : State) :
    ∃ m, (s.doOutcome v).flags = s.flags ||| m ∧ m &&& 0xE3#8 = 0#8 := by
  cases v with
  | err e => exact ⟨_, rfl, by decide⟩
  | ok p =>
    cases p with
    | nil => exact ⟨_, rfl, by decide⟩
    | cons h m =>
      simp only [State.doOutcome]
      split
      · exact ⟨_, rfl, by decide⟩
      · split <;> exact ⟨_, rfl, by decide⟩

/-- A decode attempt sets no flag of the sender, nor `CMD_ERR`. -/
theorem State.doClose_flags (s : State) : ∃ m, s.doClose.flags = s.flags ||| m ∧ m &&& 0x43#8 = 0#8 := by
  obtain ⟨f1, e1, h1⟩ := s.recordAmbig_writes s.recovered.namb
  obtain ⟨f2, e2, h2⟩ := (s.recordAmbig s.recovered.namb).recordOvf_writes s.recovered.ovf
  obtain ⟨m, e3, h3⟩ := ((s.recordAmbig s.recovered.namb).recordOvf s.recovered.ovf).doOutcome_flags s.windowVerdict
  refine ⟨(if 0 < s.recovered.namb then 0x80#8 else 0#8) ||| (if s.recovered.ovf then 0x20#8 else 0#8) ||| m, ?_, ?_⟩
  · show (((s.recordAmbig s.recovered.namb).recordOvf s.recovered.ovf).doOutcome s.windowVerdict).flags = _
    rw [e3, e2, h2, e1, h1]
    simp only [BitVec.or_assoc]
  · clear e3
    revert m
    split <;> split <;> decide

/-- Phase P3 sets no flag of the sender, nor `CMD_ERR`. -/
theorem State.phaseClose_flags (s : State) : ∃ m, s.phaseClose.flags = s.flags ||| m ∧ m &&& 0x43#8 = 0#8 := by
  simp only [State.phaseClose]
  split
  · split
    · exact s.doClose_flags
    · exact ⟨0#8, by simp, by decide⟩
  · exact ⟨0#8, by simp, by decide⟩

/-- Phase P4 sets no flag but `TX_DONE` and `TX_FAIL`. -/
theorem State.phaseTx_flags (s : State) : ∃ m, s.phaseTx.flags = s.flags ||| m ∧ m &&& 0xFC#8 = 0#8 := by
  obtain ⟨_, _, _, _, _, _, _, _, _, fl, _, e, h | h | h⟩ := s.phaseTx_writes <;> rw [e, h]
  · exact ⟨0#8, by simp, by decide⟩
  · exact ⟨_, rfl, by decide⟩
  · exact ⟨_, rfl, by decide⟩

/-- A tick clears no flag and does not set `CMD_ERR`. -/
theorem State.tickPhases_flags (d a : Bool) (s : State) :
    ∃ m, (s.tickPhases d a).flags = s.flags ||| m ∧ m &&& 0x40#8 = 0#8 := by
  obtain ⟨m1, e1, h1⟩ := s.quiet.phaseCapture_flags d
  obtain ⟨m3, e3, h3⟩ := ((s.quiet.phaseCapture d).phaseAck a).phaseClose_flags
  obtain ⟨m4, e4, h4⟩ := (((s.quiet.phaseCapture d).phaseAck a).phaseClose).phaseTx_flags
  refine ⟨m1 ||| m3 ||| m4, ?_, ?_⟩
  · show ((((s.quiet.phaseCapture d).phaseAck a).phaseClose).phaseTx).flags = _
    rw [e4, e3, State.phaseAck_flags, e1]
    simp only [BitVec.or_assoc]
    rfl
  · have e : ∀ m1 m3 m4 : BitVec 8, (m1 ||| m3 ||| m4) &&& 0x40#8
        = (m1 &&& 0xDF#8 &&& 0x40#8) ||| (m3 &&& 0x43#8 &&& 0x40#8) ||| (m4 &&& 0xFC#8 &&& 0x40#8) := by
      intro m1 m3 m4; ext i hi; simp [Bool.and_or_distrib_right]
      interval_cases i <;> simp
    rw [e, h1, h3, h4]; rfl

end Sys2Proof.Machine
end

