-- ==== Sys2Proof/Laws/Invariants.lean ====
section
/-! SUPPORT. The invariants of `State.Inv` through each shared operation. -/

namespace Sys2Proof.Machine

/-- The invariants do not read the elements written here. -/
theorem State.Inv.frame {s : State} (h : s.Inv) (sh : Word) (fl ie : BitVec 8) (ec : ErrCode) (tl : Word) (sq : Bool)
    (lr : BitVec 9) (tr : TxResult) (se ls : Bool) (rr : RxResult) (am : BitVec 16) (d a : Bool) (r : Response)
    (sc : List Record) :
    State.Inv { s with nowHiShadow := sh, flags := fl, irqEn := ie, errCode := ec, txLen := tl, txSeq := sq,
                       txLastRetries := lr, txResult := tr, rxSession := se, rxLastSeq := ls, rxResult := rr,
                       rxAmbig := am, dataOut := d, ackOut := a, response := r, script := sc } :=
  ⟨h.build_ok, h.times_fit, h.frame_size, h.index_in_frame, h.schedule_ahead, h.active_config, h.armed_config,
    h.window_open, h.entries_past, h.entries_fit, h.window_closed, h.ack_waiting, h.retry_bound, h.length_bound,
    h.mem_canonical, h.mem_in_buffers⟩

theorem State.Inv.answer {s : State} (h : s.Inv) (r : Response) : (s.answer r).Inv :=
  h.frame ..

theorem State.Inv.quiet {s : State} (h : s.Inv) : s.quiet.Inv := h.answer _

theorem State.Inv.setScript {s : State} (h : s.Inv) (sc : List Record) : State.Inv { s with script := sc } :=
  h.frame ..

theorem State.Inv.setFlag {s : State} (h : s.Inv) (f : Flag) : (s.setFlag f).Inv :=
  h.frame ..

theorem State.Inv.raise {s : State} (h : s.Inv) (ev : Event) : (s.raise ev).Inv := by
  cases ev <;> first | exact h | exact h.frame ..

/-- A window opened or extended in this tick keeps the invariants. -/
theorem State.Inv.phaseCapture {s : State} (h : s.Inv) (d : Bool) : (s.phaseCapture d).Inv := by
  cases d
  · exact h
  · simp only [State.phaseCapture, if_true]
    split
    · rename_i hr
      have hw := h.window_open hr
      simp only [State.doCapture]
      split
      · rename_i hl
        refine ⟨h.build_ok, h.times_fit, h.frame_size, h.index_in_frame, h.schedule_ahead, h.active_config,
          h.armed_config, fun _ => ?_, ?_, ?_, ?_, h.ack_waiting, h.retry_bound, h.length_bound, h.mem_canonical,
          h.mem_in_buffers⟩
        · dsimp only
          refine ⟨?_, by omega, le_refl _⟩
          cases hts : s.rxTs with
          | nil => rw [hts] at hw; simp at hw
          | cons t ts => rw [hts] at hw; simpa using hw.1
        · intro t ht
          rcases List.mem_append.mp ht with ht | ht
          · exact h.entries_past t ht
          · rw [List.mem_singleton.mp ht]
        · dsimp only
          rw [List.length_append, List.length_singleton]
          omega
        · intro h'; dsimp only at h'; rw [hr] at h'; cases h'
      · have h1 : State.Inv { s with rxTlast := s.now } :=
          ⟨h.build_ok, h.times_fit, h.frame_size, h.index_in_frame, h.schedule_ahead, h.active_config,
            h.armed_config, fun _ => ⟨hw.1, by dsimp only; omega, le_refl _⟩, h.entries_past, h.entries_fit,
            h.window_closed, h.ack_waiting, h.retry_bound, h.length_bound, h.mem_canonical, h.mem_in_buffers⟩
        exact h1.setFlag _
    · rename_i hr he
      refine ⟨h.build_ok, h.times_fit, h.frame_size, h.index_in_frame, h.schedule_ahead, h.active_config,
        fun _ => h.armed_config (.inl he), fun _ => ⟨rfl, le_refl _, le_refl _⟩, ?_, ?_, ?_, h.ack_waiting,
        h.retry_bound, h.length_bound, h.mem_canonical, h.mem_in_buffers⟩
      · intro t ht; rw [List.mem_singleton.mp ht]; exact le_refl _
      · exact h.build_ok.2.2.2
      · intro h'; cases h'
    · exact h

theorem State.Inv.phaseAck {s : State} (h : s.Inv) (a : Bool) : (s.phaseAck a).Inv := by
  obtain ⟨k, e, hk⟩ := s.phaseAck_writes a
  rw [e]
  refine ⟨h.build_ok, h.times_fit, h.frame_size, h.index_in_frame, h.schedule_ahead, h.active_config, h.armed_config,
    h.window_open, h.entries_past, h.entries_fit, h.window_closed, fun hk' => ?_, h.retry_bound, h.length_bound,
    h.mem_canonical, h.mem_in_buffers⟩
  rcases hk hk' with h1 | h1
  · exact h.ack_waiting h1
  · exact h1.2

/-- A delivery of a message that fits keeps the invariants. -/
theorem State.Inv.doDeliver {s : State} (h : s.Inv) (q : Bool) {m : List Byte} (hm : m.length ≤ s.build.maxPayload) :
    (s.doDeliver q m).Inv := by
  have h1 : State.Inv { s with mem := s.mem.writeBytes (rxbufAddr 0) m, rxLen := BitVec.ofNat 32 m.length } := by
    refine ⟨h.build_ok, h.times_fit, h.frame_size, h.index_in_frame, h.schedule_ahead, h.active_config, h.armed_config,
      h.window_open, h.entries_past, h.entries_fit, h.window_closed, h.ack_waiting, h.retry_bound, ?_,
      Memory.wf_writeBytes h.mem_canonical, ?_⟩
    · exact le_trans (by rw [BitVec.toNat_ofNat]; exact Nat.mod_le _ _) hm
    · intro c hc
      rcases Memory.mem_writeBytes hc with hc | ⟨hc1, hc2⟩
      · exact h.mem_in_buffers c hc
      · refine .inr ⟨hc1, lt_of_lt_of_le hc2 ?_⟩
        show 0x800 + 0 + m.length ≤ 0x800 + s.build.maxPayload
        omega
  exact h1.frame ..

/-- The outcome of a verdict whose payload fits the instance keeps the invariants. -/
theorem State.Inv.doOutcome {s : State} (h : s.Inv) {v : Verdict}
    (hv : ∀ p, v = .ok p → p.length ≤ s.build.frPayloadMax) : (s.doOutcome v).Inv := by
  cases v with
  | err e => exact h.raise (.frameError e)
  | ok p =>
    cases p with
    | nil => exact h.raise .headerError
    | cons b m =>
      simp only [State.doOutcome]
      split
      · exact h.frame ..
      · split
        · exact h.raise _
        · refine h.doDeliver _ ?_
          have := hv _ rfl
          simp only [Build.frPayloadMax, List.length_cons] at this
          omega

theorem State.Inv.doClose {s : State} (h : s.Inv) : s.doClose.Inv := by
  obtain ⟨fl, h1, -⟩ := s.recordAmbig_writes s.recovered.namb
  obtain ⟨fl', h2, -⟩ := (s.recordAmbig s.recovered.namb).recordOvf_writes s.recovered.ovf
  have hb : ((s.recordAmbig s.recovered.namb).recordOvf s.recovered.ovf).Inv := by
    rw [h2, h1]; exact h.frame ..
  have hbuild : ((s.recordAmbig s.recovered.namb).recordOvf s.recovered.ovf).build = s.build := by rw [h2, h1]
  have ho : (((s.recordAmbig s.recovered.namb).recordOvf s.recovered.ovf).doOutcome s.windowVerdict).Inv := by
    refine hb.doOutcome fun p hp => ?_
    have := frDecode_length (bits := s.recovered.bits) (bodyMax := s.build.bodyMax) hp
    rw [hbuild]
    simp only [Build.frPayloadMax, Build.bodyMax] at *
    omega
  have hm : (((s.recordAmbig s.recovered.namb).recordOvf s.recovered.ovf).doOutcome s.windowVerdict).rxEn = s.rxEn := by
    rw [State.doOutcome_rxEn, h2, h1]
  refine ⟨ho.build_ok, ho.times_fit, ho.frame_size, ho.index_in_frame, ho.schedule_ahead, ho.active_config, ?_, ?_, ?_,
    ?_, fun _ => rfl, ho.ack_waiting, ho.retry_bound, ho.length_bound, ho.mem_canonical, ho.mem_in_buffers⟩
  · rintro (hr | hr)
    · exact ho.armed_config (.inl hr)
    · cases hr
  · intro hr; cases hr
  · intro t ht; cases ht
  · exact Nat.zero_le _

theorem State.Inv.phaseClose {s : State} (h : s.Inv) : s.phaseClose.Inv := by
  simp only [State.phaseClose]
  split
  · split
    · exact h.doClose
    · exact h
  · exact h

theorem State.Inv.doEmit {s : State} (h : s.Inv) (ho : s.txOp = .emit) : s.doEmit.Inv := by
  have hc : s.txState = .sending ∧ s.due = true ∧ s.lastBit = false := by
    rcases s.txOp_cases with c | c | c | c | c | c | c | c | c <;> simp_all
  have hl : s.txIdx + 1 ≠ s.txNbits := fun e => by
    have := (State.lastBit_iff s).mpr e; rw [hc.2.2] at this; cases this
  have hi := h.index_in_frame hc.1
  have hd : s.now = s.txT0 + s.txIdx * s.tslot := (State.due_iff s).mp hc.2.1
  refine ⟨h.build_ok, h.times_fit, h.frame_size, fun _ => ?_, fun _ => ?_, h.active_config, h.armed_config,
    h.window_open, h.entries_past, h.entries_fit, h.window_closed, h.ack_waiting, h.retry_bound, h.length_bound,
    h.mem_canonical, h.mem_in_buffers⟩
  · show s.txIdx + 1 < s.txNbits
    omega
  · show s.now ≤ s.txT0 + (s.txIdx + 1) * s.tslot
    rw [Nat.add_mul]; omega

theorem State.Inv.doEmitLast {s : State} (h : s.Inv) (ho : s.txOp = .emitLast) (ht : s.timeOk = true) :
    s.doEmitLast.Inv := by
  have hc : s.txState = .sending := by
    rcases s.txOp_cases with c | c | c | c | c | c | c | c | c <;> simp_all
  rw [State.timeOk_def, decide_eq_true_eq] at ht
  refine ⟨h.build_ok, ⟨h.times_fit.1, h.times_fit.2.1, ?_⟩, fun _ => h.frame_size (.inl hc), ?_, ?_,
    fun _ => h.active_config (.inl hc), h.armed_config, h.window_open, h.entries_past, h.entries_fit, h.window_closed,
    fun _ => rfl, fun _ => h.retry_bound (.inl hc), h.length_bound, h.mem_canonical, h.mem_in_buffers⟩
  · show s.now + s.tack < 2 ^ s.build.tsW
    omega
  · intro h'; cases h'
  · intro h'; cases h'

theorem State.Inv.doAcked {s : State} (h : s.Inv) : s.doAcked.Inv := by
  have h1 : State.Inv { s with txRetry := 0, txState := .idle, ackSeen := false } := by
    refine ⟨h.build_ok, h.times_fit, ?_, ?_, ?_, ?_, h.armed_config, h.window_open, h.entries_past, h.entries_fit,
      h.window_closed, ?_, ?_, h.length_bound, h.mem_canonical, h.mem_in_buffers⟩
    · rintro (h' | h') <;> cases h'
    · intro h'; cases h'
    · intro h'; cases h'
    · rintro (h' | h') <;> cases h'
    · intro h'; cases h'
    · rintro (h' | h') <;> cases h'
  exact h1.frame ..

theorem State.Inv.doRetx {s : State} (h : s.Inv) (ho : s.txOp = .retx) (ht : s.timeOk = true) : s.doRetx.Inv := by
  have hc : s.txState = .waitingAck ∧ s.exhausted = false := by
    rcases s.txOp_cases with c | c | c | c | c | c | c | c | c <;> simp_all
  rw [State.timeOk_def, decide_eq_true_eq] at ht
  have hx : s.txRetry.toNat < s.cfgMaxRetry.toNat := by
    by_contra hn
    have := (State.exhausted_iff s).mpr (by omega)
    rw [hc.2] at this; cases this
  have hf := h.frame_size (.inr hc.1)
  refine ⟨h.build_ok, ⟨h.times_fit.1, ?_, h.times_fit.2.2⟩, fun _ => hf, fun _ => ?_, fun _ => ?_,
    fun _ => h.active_config (.inr hc.1), h.armed_config, h.window_open, h.entries_past, h.entries_fit,
    h.window_closed, ?_, fun _ => ?_, h.length_bound, h.mem_canonical, h.mem_in_buffers⟩
  · show s.now + 1 < 2 ^ s.build.tsW
    omega
  · show 0 < s.txNbits
    omega
  · show s.now ≤ s.now + 1 + 0 * s.tslot
    omega
  · intro h'; cases h'
  · show (s.txRetry + 1).toNat ≤ s.cfgMaxRetry.toNat
    have := s.cfgMaxRetry.isLt
    have e : (s.txRetry + 1).toNat = s.txRetry.toNat + 1 := by
      rw [BitVec.toNat_add]; simp; omega
    omega

theorem State.Inv.doFail {s : State} (h : s.Inv) : s.doFail.Inv := by
  have h1 : State.Inv { s with txRetry := s.txRetry + 1, txState := .failed, ackSeen := false } := by
    refine ⟨h.build_ok, h.times_fit, ?_, ?_, ?_, ?_, h.armed_config, h.window_open, h.entries_past, h.entries_fit,
      h.window_closed, ?_, ?_, h.length_bound, h.mem_canonical, h.mem_in_buffers⟩
    · rintro (h' | h') <;> cases h'
    · intro h'; cases h'
    · intro h'; cases h'
    · rintro (h' | h') <;> cases h'
    · intro h'; cases h'
    · rintro (h' | h') <;> cases h'
  exact h1.raise _

theorem State.Inv.phaseTx {s : State} (h : s.Inv) (ht : s.timeOk = true) : s.phaseTx.Inv := by
  rw [State.phaseTx_eq]
  cases ho : s.txOp
  · exact h
  · exact h
  · exact h
  · exact h.doEmit ho
  · exact h.doEmitLast ho ht
  · exact h.doAcked
  · exact h
  · exact h.doRetx ho ht
  · exact h.doFail

/-- After phase P4 the next bit is scheduled in a later tick. -/
theorem State.Inv.phaseTx_ahead {s : State} (h : s.Inv) :
    s.phaseTx.txState = .sending → s.now + 1 ≤ s.phaseTx.txT0 + s.phaseTx.txIdx * s.phaseTx.tslot := by
  rw [State.phaseTx_eq]
  rcases s.txOp_cases with c | c | c | c | c | c | c | c | c
  · rw [c.2]; intro h'; rw [c.1] at h'; cases h'
  · rw [c.2]; intro h'; rw [c.1] at h'; cases h'
  · obtain ⟨c1, c2, c3⟩ := c
    rw [c3]; intro _
    have h1 := h.schedule_ahead c1
    have h2 : s.now ≠ s.txT0 + s.txIdx * s.tslot := fun e => by
      have := (State.due_iff s).mpr e; rw [c2] at this; cases this
    dsimp only
    omega
  · obtain ⟨c1, c2, c3, c4⟩ := c
    rw [c4]; intro _
    have h2 : s.now = s.txT0 + s.txIdx * s.tslot := (State.due_iff s).mp c2
    have h3 : 1 ≤ s.tslot := ((State.cfgOk_iff s).mp (h.active_config (.inl c1)).1).1
    show s.now + 1 ≤ s.txT0 + (s.txIdx + 1) * s.tslot
    rw [Nat.add_mul]; omega
  · rw [c.2.2.2]; intro h'; cases h'
  · rw [c.2.2]; intro h'; cases h'
  · rw [c.2.2.2]; intro h'; rw [c.1] at h'; cases h'
  · rw [c.2.2.2.2]; intro _
    show s.now + 1 ≤ s.now + 1 + 0 * s.tslot
    omega
  · rw [c.2.2.2.2]; intro h'; cases h'

/-- A tick inside the no-overflow premise keeps the invariants. -/
theorem State.Inv.tick {s : State} (h : s.Inv) (d a : Bool) (ht : s.timeOk = true) :
    State.Inv { s.tickPhases d a with now := s.now + 1 } := by
  have h3 : (((s.quiet.phaseCapture d).phaseAck a).phaseClose).Inv :=
    ((h.quiet.phaseCapture d).phaseAck a).phaseClose
  have hn : (((s.quiet.phaseCapture d).phaseAck a).phaseClose).now = s.now := by simp
  have htk : (((s.quiet.phaseCapture d).phaseAck a).phaseClose).timeOk = true := by
    rw [State.timeOk_def, decide_eq_true_eq] at ht ⊢
    simpa [State.tack, State.tidle, State.tslot] using ht
  have h4 := h3.phaseTx htk
  have hah := h3.phaseTx_ahead
  rw [State.timeOk_def, decide_eq_true_eq] at ht
  have e : s.tickPhases d a = (((s.quiet.phaseCapture d).phaseAck a).phaseClose).phaseTx := rfl
  rw [← e] at h4 hah
  rw [hn] at hah
  have hn4 : (s.tickPhases d a).now = s.now := by simp
  refine ⟨h4.build_ok, ⟨?_, h4.times_fit.2.1, h4.times_fit.2.2⟩, h4.frame_size, h4.index_in_frame, hah,
    h4.active_config, h4.armed_config, fun hr => ?_, fun t htt => ?_, h4.entries_fit, h4.window_closed, h4.ack_waiting,
    h4.retry_bound, h4.length_bound, h4.mem_canonical, h4.mem_in_buffers⟩
  · show s.now + 1 < 2 ^ (s.tickPhases d a).build.tsW
    rw [State.tickPhases_build]; omega
  · have := h4.window_open hr
    rw [hn4] at this
    exact ⟨this.1, this.2.1, le_trans this.2.2 (Nat.le_succ _)⟩
  · have := h4.entries_past t htt
    rw [hn4] at this
    show t ≤ s.now + 1
    omega

/-- An accepted or rejected `SEND` keeps the invariants. -/
theorem State.Inv.doSend {s : State} (h : s.Inv) : s.doSend.Inv := by
  rcases s.doSend_cases with ⟨-, e⟩ | ⟨-, ⟨-, e⟩ | ⟨-, -, e⟩ | ⟨-, -, -, e⟩ | ⟨hp, hl, hc, e⟩⟩
  · exact e ▸ h.raise _
  · exact e ▸ h.raise _
  · exact e ▸ h.raise _
  · exact e ▸ h.raise _
  · rw [e]
    have hlen : (headerByte s.txSeq :: s.message).length = s.txLen.toNat + 1 := by simp [State.message]
    have h1 := length_le_frEscape ((headerByte s.txSeq :: s.message) ++ crc32le (headerByte s.txSeq :: s.message))
    have h2 := length_frEscape_le ((headerByte s.txSeq :: s.message) ++ crc32le (headerByte s.txSeq :: s.message))
    have h3 := length_frEncode (headerByte s.txSeq :: s.message)
    rw [List.length_append, hlen, length_crc32le] at h1 h2
    have hf : 56 ≤ 8 * s.newFrame.length ∧ 8 * s.newFrame.length ≤ s.build.frameMaxBits := by
      simp only [State.newFrame, Build.frameMaxBits, Build.frameMaxBytes, Build.bodyMax]
      rw [h3]
      omega
    have hb : State.Inv { s with txFrame := s.newFrame, txState := .sending, txT0 := s.now, txIdx := 0, txRetry := 0,
                                 ackSeen := false } := by
      refine ⟨h.build_ok, ⟨h.times_fit.1, h.times_fit.1, h.times_fit.2.2⟩, fun _ => hf, fun _ => ?_, fun _ => ?_,
        fun _ => ⟨hc, hp⟩, h.armed_config, h.window_open, h.entries_past, h.entries_fit, h.window_closed, ?_,
        fun _ => ?_, h.length_bound, h.mem_canonical, h.mem_in_buffers⟩
      · show 0 < 8 * s.newFrame.length
        omega
      · show s.now ≤ s.now + 0 * s.tslot
        omega
      · intro h'; cases h'
      · exact Nat.zero_le _
    exact hb.frame ..

theorem State.Inv.doSoftReset {s : State} (h : s.Inv) : s.doSoftReset.Inv := by
  have hpow : 0 < 2 ^ s.build.tsW := Nat.two_pow_pos _
  refine ⟨h.build_ok, ⟨h.times_fit.1, hpow, hpow⟩, ?_, ?_, ?_, ?_, ?_, ?_, ?_, Nat.zero_le _, fun _ => rfl, ?_, ?_,
    Nat.zero_le _, h.mem_canonical, h.mem_in_buffers⟩
  · rintro (h' | h') <;> cases h'
  · intro h'; cases h'
  · intro h'; cases h'
  · rintro (h' | h') <;> cases h'
  · rintro (h' | h') <;> cases h'
  · intro h'; cases h'
  · intro t ht; cases ht
  · intro h'; cases h'
  · rintro (h' | h') <;> cases h'

theorem State.Inv.doCommand {s : State} (h : s.Inv) (v : Word) : (s.doCommand v).Inv := by
  simp only [State.doCommand]
  split
  · exact h
  split
  · exact h.doSend
  split
  · simp only [State.doRxEnable]
    split
    · exact h.raise _
    split
    · exact h.raise _
    · rename_i hp hc
      have hc' : s.cfgOk = true := by simpa using hc
      have hp' : s.peerValid = true := by simpa using hp
      exact ⟨h.build_ok, h.times_fit, h.frame_size, h.index_in_frame, h.schedule_ahead, h.active_config,
        fun _ => ⟨hc', hp'⟩, h.window_open, h.entries_past, h.entries_fit,
        h.window_closed, h.ack_waiting, h.retry_bound, h.length_bound, h.mem_canonical, h.mem_in_buffers⟩
  split
  · refine ⟨h.build_ok, h.times_fit, h.frame_size, h.index_in_frame, h.schedule_ahead, h.active_config, ?_,
      h.window_open, h.entries_past, h.entries_fit, h.window_closed, h.ack_waiting, h.retry_bound, h.length_bound,
      h.mem_canonical, h.mem_in_buffers⟩
    rintro (h' | h')
    · cases h'
    · exact h.armed_config (.inr h')
  split
  · exact h.doSoftReset
  · exact h.raise _

/-- In a quiescent state neither role is active, so the configuration is free. -/
theorem State.Inv.setConfig {s : State} (h : s.Inv) (hq : s.quiescent = true) (re : Bool) (t ti ta : Word)
    (mr : BitVec 8) (am p : Word) (pv : Bool) :
    State.Inv { s with reanchor := re, cfgTslot := t, cfgTidle := ti, cfgTack := ta, cfgMaxRetry := mr, cfgAmbig := am,
                       peerId := p, peerValid := pv } := by
  obtain ⟨h1, h2, h3⟩ := (State.quiescent_iff s).mp hq
  have hna : ¬ (s.txState = .sending ∨ s.txState = .waitingAck) := by rcases h1 with h1 | h1 <;> simp [h1]
  refine ⟨h.build_ok, h.times_fit, h.frame_size, h.index_in_frame, fun h' => absurd (.inl h') hna,
    fun h' => absurd h' hna, ?_, h.window_open, h.entries_past, h.entries_fit, h.window_closed, h.ack_waiting,
    fun h' => absurd h' hna, h.length_bound, h.mem_canonical, h.mem_in_buffers⟩
  rintro (h' | h')
  · exact absurd h' (by show ¬ s.rxEn = true; simp [h3])
  · exact absurd h' (by show ¬ s.rxState = .receiving; simp [h2])

theorem State.Inv.writeLocked {s : State} (h : s.Inv) {f : State → State} (hf : s.quiescent = true → (f s).Inv) :
    (s.writeLocked f).Inv := by
  simp only [State.writeLocked]
  split
  · exact hf ‹_›
  · exact h.raise _

theorem State.Inv.regWrite {s : State} (h : s.Inv) (r : Reg) (v : Word) : (s.regWrite r v).Inv := by
  cases r
  case cmd => exact h.doCommand v
  case flags => exact h.frame ..
  case irqEn => exact h.frame ..
  case txLen => exact h.frame ..
  case peerId | cfgMode | cfgTslot | cfgTidle | cfgTack | cfgMaxRetry | cfgAmbig =>
    simp only [State.regWrite]
    exact h.writeLocked fun hq => h.setConfig hq ..
  all_goals exact h

theorem State.Inv.writeTxbuf {s : State} (h : s.Inv) (a : Nat) (b : Byte) : (s.writeTxbuf a b).Inv := by
  simp only [State.writeTxbuf]
  split
  · exact h.answer _
  · have h1 : State.Inv { s with mem := s.mem.write (txbufAddr a) b } := by
      refine ⟨h.build_ok, h.times_fit, h.frame_size, h.index_in_frame, h.schedule_ahead, h.active_config,
        h.armed_config, h.window_open, h.entries_past, h.entries_fit, h.window_closed, h.ack_waiting, h.retry_bound,
        h.length_bound, Memory.wf_write h.mem_canonical, fun c hc => ?_⟩
      rcases Memory.mem_write hc with hc | hc
      · exact h.mem_in_buffers c hc
      · rw [hc]
        exact .inl ⟨Nat.le_add_right _ _, by show 0x400 + a < 0x400 + s.build.maxPayload; omega⟩
    exact h1.answer _

end Sys2Proof.Machine
end

