-- ==== Sys2Proof/Laws/PerInstr.lean ====
section
/-! SUPPORT. A family of statements about the operations as syntax, one lemma for each: the encoder writes the format of
the operation's row of spec/opcode_table.json, and the bits that the row fixes. -/

namespace Sys2Proof.Laws.EncodeFormat

open Sys2Proof

/-- What an operation's row of the table fixes. -/
structure RowBits where
  fmt : Format
  /-- The bits the row fixes; 0 where it fixes none. -/
  mask : Nat
  /-- Their values. -/
  bits : Nat

/-- The bits as a number, the leftmost first. -/
def ofBits : List Bool → Nat := List.foldl (fun n b => 2 * n + b.toNat) 0

/-- The bits of a record as its format's rows number them: the byte or value of a `WIRE`, `HDR` or `CMD`, the first byte
of a `FRAME` (30_encoding.md R101, R102, R105, R107), the vectors of R112 to R114, and of a bus access the width in the
low byte and the address above it (R111). -/
def recordBits : Record → Nat
  | .frame bytes => (bytes.headD 0).toNat
  | .wire b _ => b.toNat
  | .hdr b => b.toNat
  | .cmd v => v.toNat
  | .tick d a => ofBits [d, a]
  | .reset => 0
  | .ackStrobe => 1
  | .bus a => 256 * a.addr + a.width % 256
  | .txv v => v.toNat
  | .rxvP1 r e i => ofBits [r, e, true, i]
  | .rxvP3 (.opened i) => ofBits [false, true, true, i]
  | .rxvP3 (.wasOpen e d i) => ofBits [true, e, d, i]
  | .rxo (.err _) q b => ofBits [false, false, q, b]
  | .rxo (.ok []) q b => ofBits [true, false, q, b]
  | .rxo (.ok (_ :: _)) q b => ofBits [true, true, q, b]
  | .func _ => 0

/-- The format and the fixed bits of an operation's row: `match` and `mask` (R102, R105, R108), the vectors of R112 to
R114, the width, or the offset and the width, of a bus access (R111). -/
def rowBits : Instr → RowBits
  | .nop => ⟨.cmd, 0xffffffff, 0⟩
  | .send => ⟨.cmd, 0xffffffff, 1⟩
  | .rxEnable => ⟨.cmd, 0xffffffff, 2⟩
  | .rxDisable => ⟨.cmd, 0xffffffff, 3⟩
  | .softReset => ⟨.cmd, 0xffffffff, 4⟩
  | .cmdReserved _ => ⟨.cmd, 0, 0⟩
  | .wireFlag => ⟨.wire, 0xff, 0x7e⟩
  | .wireEsc _ => ⟨.wire, 0xff, 0x7d⟩
  | .wireLit _ => ⟨.wire, 0, 0⟩
  | .hdr _ => ⟨.hdr, 0xfe, 0⟩
  | .frame _ => ⟨.frame, 0xff, 0x7e⟩
  | .ackCapture => ⟨.evt, 1, 1⟩
  | .tick _ _ => ⟨.evt, 0, 0⟩
  | .reset => ⟨.evt, 0, 0⟩
  | .regRd _ => ⟨.bus, 0xff, 4⟩
  | .regWr _ _ => ⟨.bus, 0xff, 4⟩
  | .bufRd _ _ => ⟨.bus, 0xff, 1⟩
  | .bufWr _ _ => ⟨.bus, 0xff, 1⟩
  | .regWrFlags _ => ⟨.bus, 0xffff, 0x404⟩
  | .regWrIrqEn _ => ⟨.bus, 0xffff, 0x804⟩
  | .regWrTxLen _ => ⟨.bus, 0xffff, 0x3004⟩
  | .regWrPeerId _ => ⟨.bus, 0xffff, 0x2c04⟩
  | .regWrCfgMode _ => ⟨.bus, 0xffff, 0x1004⟩
  | .regWrCfgTslot _ => ⟨.bus, 0xffff, 0x1404⟩
  | .regWrCfgTidle _ => ⟨.bus, 0xffff, 0x1804⟩
  | .regWrCfgTack _ => ⟨.bus, 0xffff, 0x1c04⟩
  | .regWrCfgMaxRetry _ => ⟨.bus, 0xffff, 0x2004⟩
  | .regWrCfgAmbig _ => ⟨.bus, 0xffff, 0x2404⟩
  | .busError _ => ⟨.bus, 0, 0⟩
  | .txHoldIdle => ⟨.txv, 0xe0, 0⟩
  | .txHoldFailed => ⟨.txv, 0xe0, 0x60⟩
  | .txWaitSlot => ⟨.txv, 0xf0, 0x20⟩
  | .txEmit => ⟨.txv, 0xf8, 0x30⟩
  | .txEmitLast => ⟨.txv, 0xf8, 0x38⟩
  | .txAcked => ⟨.txv, 0xe4, 0x44⟩
  | .txWait => ⟨.txv, 0xe6, 0x40⟩
  | .txRetx => ⟨.txv, 0xe7, 0x42⟩
  | .txFail => ⟨.txv, 0xe7, 0x43⟩
  | .rxIgnore => ⟨.rxv, 14, 2⟩
  | .rxStart => ⟨.rxv, 14, 6⟩
  | .rxCapture => ⟨.rxv, 10, 10⟩
  | .rxWaitStart => ⟨.rxv, 14, 6⟩
  | .rxWaitCapture => ⟨.rxv, 10, 10⟩
  | .rxWaitQuiet => ⟨.rxv, 11, 8⟩
  | .rxClose => ⟨.rxv, 11, 9⟩
  | .rxDropErr _ => ⟨.rxo, 8, 0⟩
  | .rxDropHdr => ⟨.rxo, 12, 8⟩
  | .rxDup _ => ⟨.rxo, 14, 14⟩
  | .rxBusy _ => ⟨.rxo, 15, 13⟩
  | .rxDeliver _ _ => ⟨.rxo, 15, 12⟩
  | .btEncode _ _ _ => ⟨.func, 0, 0⟩
  | .btSlot _ _ => ⟨.func, 0, 0⟩
  | .btDecodeFixed _ _ _ _ _ => ⟨.func, 0, 0⟩
  | .btDecodeReanchor _ _ _ _ _ => ⟨.func, 0, 0⟩
  | .assemble _ _ => ⟨.func, 0, 0⟩
  | .crc32 _ => ⟨.func, 0, 0⟩
  | .crc32le _ => ⟨.func, 0, 0⟩
  | .frEscape _ => ⟨.func, 0, 0⟩
  | .frEncode _ => ⟨.func, 0, 0⟩
  | .frUnescape _ => ⟨.func, 0, 0⟩
  | .frDecode _ _ => ⟨.func, 0, 0⟩

/-- The encoder writes the row's format and fixed bits. -/
def Statement (i : Instr) : Prop :=
  (encode i).fmt = (rowBits i).fmt ∧ recordBits (encode i) &&& (rowBits i).mask = (rowBits i).bits

/-- The low byte of an access is its width. -/
theorem bus_width (addr width : Nat) (h : width < 256) : (256 * addr + width % 256) &&& 0xff = width := by
  rw [Nat.and_two_pow_sub_one_eq_mod _ 8]; omega

theorem nop : Statement .nop := ⟨rfl, rfl⟩
theorem send : Statement .send := ⟨rfl, rfl⟩
theorem rxEnable : Statement .rxEnable := ⟨rfl, rfl⟩
theorem rxDisable : Statement .rxDisable := ⟨rfl, rfl⟩
theorem softReset : Statement .softReset := ⟨rfl, rfl⟩
theorem cmdReserved v : Statement (.cmdReserved v) := ⟨rfl, Nat.and_zero _⟩
theorem wireFlag : Statement .wireFlag := ⟨rfl, rfl⟩
theorem wireEsc x : Statement (.wireEsc x) := ⟨rfl, by simp only [encode, recordBits, rowBits]; decide⟩
theorem wireLit b : Statement (.wireLit b) := ⟨rfl, Nat.and_zero _⟩
theorem hdr s : Statement (.hdr s) := by cases s <;> exact ⟨rfl, rfl⟩
theorem frame p : Statement (.frame p) := ⟨rfl, by simp only [encode, recordBits, rowBits, Machine.frEncode, List.cons_append, List.headD_cons]; decide⟩
theorem ackCapture : Statement .ackCapture := ⟨rfl, rfl⟩
theorem tick d a : Statement (.tick d a) := ⟨rfl, Nat.and_zero _⟩
theorem reset : Statement .reset := ⟨rfl, Nat.and_zero _⟩
theorem regRd off : Statement (.regRd off) := ⟨rfl, bus_width _ 4 (by decide)⟩
theorem regWr off v : Statement (.regWr off v) := ⟨rfl, bus_width _ 4 (by decide)⟩
theorem bufRd sp a : Statement (.bufRd sp a) := ⟨rfl, bus_width _ 1 (by decide)⟩
theorem bufWr a b : Statement (.bufWr a b) := ⟨rfl, bus_width _ 1 (by decide)⟩
theorem regWrFlags v : Statement (.regWrFlags v) := ⟨rfl, by simp only [encode, regWrRecord, recordBits, rowBits]; decide⟩
theorem regWrIrqEn v : Statement (.regWrIrqEn v) := ⟨rfl, by simp only [encode, regWrRecord, recordBits, rowBits]; decide⟩
theorem regWrTxLen v : Statement (.regWrTxLen v) := ⟨rfl, by simp only [encode, regWrRecord, recordBits, rowBits]; decide⟩
theorem regWrPeerId v : Statement (.regWrPeerId v) := ⟨rfl, by simp only [encode, regWrRecord, recordBits, rowBits]; decide⟩
theorem regWrCfgMode v : Statement (.regWrCfgMode v) := ⟨rfl, by simp only [encode, regWrRecord, recordBits, rowBits]; decide⟩
theorem regWrCfgTslot v : Statement (.regWrCfgTslot v) := ⟨rfl, by simp only [encode, regWrRecord, recordBits, rowBits]; decide⟩
theorem regWrCfgTidle v : Statement (.regWrCfgTidle v) := ⟨rfl, by simp only [encode, regWrRecord, recordBits, rowBits]; decide⟩
theorem regWrCfgTack v : Statement (.regWrCfgTack v) := ⟨rfl, by simp only [encode, regWrRecord, recordBits, rowBits]; decide⟩
theorem regWrCfgMaxRetry v : Statement (.regWrCfgMaxRetry v) := ⟨rfl, by simp only [encode, regWrRecord, recordBits, rowBits]; decide⟩
theorem regWrCfgAmbig v : Statement (.regWrCfgAmbig v) := ⟨rfl, by simp only [encode, regWrRecord, recordBits, rowBits]; decide⟩
theorem busError acc : Statement (.busError acc) := ⟨rfl, Nat.and_zero _⟩
theorem txHoldIdle : Statement .txHoldIdle := ⟨rfl, rfl⟩
theorem txHoldFailed : Statement .txHoldFailed := ⟨rfl, rfl⟩
theorem txWaitSlot : Statement .txWaitSlot := ⟨rfl, rfl⟩
theorem txEmit : Statement .txEmit := ⟨rfl, rfl⟩
theorem txEmitLast : Statement .txEmitLast := ⟨rfl, rfl⟩
theorem txAcked : Statement .txAcked := ⟨rfl, rfl⟩
theorem txWait : Statement .txWait := ⟨rfl, rfl⟩
theorem txRetx : Statement .txRetx := ⟨rfl, rfl⟩
theorem txFail : Statement .txFail := ⟨rfl, rfl⟩
theorem rxIgnore : Statement .rxIgnore := ⟨rfl, rfl⟩
theorem rxStart : Statement .rxStart := ⟨rfl, rfl⟩
theorem rxCapture : Statement .rxCapture := ⟨rfl, rfl⟩
theorem rxWaitStart : Statement .rxWaitStart := ⟨rfl, rfl⟩
theorem rxWaitCapture : Statement .rxWaitCapture := ⟨rfl, rfl⟩
theorem rxWaitQuiet : Statement .rxWaitQuiet := ⟨rfl, rfl⟩
theorem rxClose : Statement .rxClose := ⟨rfl, rfl⟩
theorem rxDropErr e : Statement (.rxDropErr e) := ⟨rfl, by simp only [encode, recordBits, rowBits]; decide⟩
theorem rxDropHdr : Statement .rxDropHdr := ⟨rfl, rfl⟩
theorem rxDup s : Statement (.rxDup s) := ⟨rfl, by simp only [encode, recordBits, rowBits]; decide⟩
theorem rxBusy s : Statement (.rxBusy s) := ⟨rfl, by simp only [encode, recordBits, rowBits]; decide⟩
theorem rxDeliver s m : Statement (.rxDeliver s m) := ⟨rfl, by simp only [encode, recordBits, rowBits]; decide⟩
theorem btEncode bits t0 T : Statement (.btEncode bits t0 T) := ⟨rfl, Nat.and_zero _⟩
theorem btSlot d T : Statement (.btSlot d T) := ⟨rfl, Nat.and_zero _⟩
theorem btDecodeFixed ts r T W M : Statement (.btDecodeFixed ts r T W M) := ⟨rfl, Nat.and_zero _⟩
theorem btDecodeReanchor ts r T W M : Statement (.btDecodeReanchor ts r T W M) := ⟨rfl, Nat.and_zero _⟩
theorem assemble ks W : Statement (.assemble ks W) := ⟨rfl, Nat.and_zero _⟩
theorem crc32 p : Statement (.crc32 p) := ⟨rfl, Nat.and_zero _⟩
theorem crc32le p : Statement (.crc32le p) := ⟨rfl, Nat.and_zero _⟩
theorem frEscape body : Statement (.frEscape body) := ⟨rfl, Nat.and_zero _⟩
theorem frEncode p : Statement (.frEncode p) := ⟨rfl, Nat.and_zero _⟩
theorem frUnescape raw : Statement (.frUnescape raw) := ⟨rfl, Nat.and_zero _⟩
theorem frDecode bits bodyMax : Statement (.frDecode bits bodyMax) := ⟨rfl, Nat.and_zero _⟩

end Sys2Proof.Laws.EncodeFormat
end

