-- ==== Sys2Proof/Laws/Sender.lean ====
section
/-! SUPPORT. The sender through a tick: the receiver's phases leave what phase P4 reads as it was (20_memory.md R80). -/

namespace Sys2Proof.Machine

/-- The state that phase P4 of a tick sees. -/
def State.beforeTx (d a : Bool) (s : State) : State := ((s.quiet.phaseCapture d).phaseAck a).phaseClose

theorem State.tickPhases_eq (d a : Bool) (s : State) : s.tickPhases d a = (s.beforeTx d a).phaseTx := rfl

/-- Phase P4 of a tick sees the acknowledgment captured in that tick. -/
theorem State.beforeTx_ackSeen (d a : Bool) (s : State) :
    (s.beforeTx d a).ackSeen = (s.ackSeen || (a && s.txState == .waitingAck)) := by
  rw [State.beforeTx, State.phaseClose_ackSeen]
  cases a
  · simp [State.phaseAck]
  · simp only [State.phaseAck, if_true, State.doAckCapture, State.phaseCapture_txState]
    have e : s.quiet.txState = s.txState := rfl
    rw [e]
    cases s.txState <;> simp

/-- Phase P4 of a tick sees the sender's fields of the state before the tick, and the acknowledgment of the tick. -/
theorem State.beforeTx_spec (d a : Bool) (s : State) :
    (s.beforeTx d a).now = s.now ∧ (s.beforeTx d a).build = s.build ∧ (s.beforeTx d a).txState = s.txState ∧
    (s.beforeTx d a).txIdx = s.txIdx ∧ (s.beforeTx d a).txT0 = s.txT0 ∧ (s.beforeTx d a).txFrame = s.txFrame ∧
    (s.beforeTx d a).txDeadline = s.txDeadline ∧ (s.beforeTx d a).txRetry = s.txRetry ∧
    (s.beforeTx d a).txSeq = s.txSeq ∧ (s.beforeTx d a).txLastRetries = s.txLastRetries ∧
    (s.beforeTx d a).txResult = s.txResult ∧ (s.beforeTx d a).cfgTslot = s.cfgTslot ∧
    (s.beforeTx d a).cfgTack = s.cfgTack ∧ (s.beforeTx d a).cfgTidle = s.cfgTidle ∧
    (s.beforeTx d a).cfgMaxRetry = s.cfgMaxRetry ∧ (s.beforeTx d a).dataOut = false ∧
    (s.beforeTx d a).ackSeen = (s.ackSeen || (a && s.txState == .waitingAck)) := by
  rw [State.beforeTx_ackSeen]
  simp [State.beforeTx]

/-- Inside the premise a tick completes. -/
theorem execTick_ok {s : State} (h : s.timeOk = true) (d a : Bool) :
    execTick d a s = .next { (s.beforeTx d a).phaseTx with now := s.now + 1 } := by
  simp only [execTick, h, if_true]; rfl

/-- Ticks in two parts. -/
theorem runTicks_append (l m : List (Bool × Bool)) (s : State) :
    runTicks (l ++ m) s = (runTicks l s).bind (runTicks m) := by
  induction l generalizing s with
  | nil => rfl
  | cons x l ih =>
    obtain ⟨d, a⟩ := x
    simp only [List.cons_append, runTicks]
    cases exec (.tick d a) s <;> simp [ih]

end Sys2Proof.Machine
end

