-- ==== Sys2Proof/Tests/Slice0.lean ====
section
/-! SUPPORT. Tests: ill-formed operations are refused, words written out from the encodings decode to their operations,
one-step tests against the vectors of 95_test_vectors.md, and a witness for the hypotheses of each statement. -/

namespace Sys2Proof.Tests

open Sys2Proof Sys2Proof.Machine

-- One theorem after another: each `decide +kernel` waits for the kernel, and a thread each would exhaust the memory limit.
set_option Elab.async false

/-! ## Well-formedness refuses -/

theorem test_wf_refuses :
    (Instr.cmdReserved 4).wf = false ∧ (Instr.wireEsc 0x7E).wf = false ∧ (Instr.wireLit 0x7E).wf = false ∧
    (Instr.wireLit 0x7D).wf = false ∧ (Instr.regRd 0x06).wf = false ∧ (Instr.regRd 0x4C).wf = false ∧
    (Instr.regWr 0x05 0).wf = false ∧ (Instr.regWr 0x10 0).wf = false ∧
    (Instr.busError ⟨.rd, .reg, 0x04, 4⟩).wf = false ∧ (Instr.busError ⟨.wr 256, .txbuf, 0, 1⟩).wf = false ∧
    (Instr.btEncode [true] 0 0).wf = false ∧ (Instr.btSlot 3 0).wf = false ∧
    (Instr.btDecodeFixed [1, 1] 0 10 610 1).wf = false ∧ (Instr.btDecodeFixed [1] 0 0 610 1).wf = false ∧
    (Instr.btDecodeReanchor [2, 1] 0 10 610 1).wf = false ∧ (Instr.btDecodeReanchor [1] 0 0 610 1).wf = false ∧
    (Instr.frUnescape [0x61, 0x7E]).wf = false := by decide

theorem test_wf_refuses_long :
    (Instr.frame (List.replicate 1026 0)).wf = false ∧ (Instr.frEncode (List.replicate 1026 0)).wf = false ∧
    (Instr.rxDeliver false (List.replicate 1025 0)).wf = false := by decide +kernel

/-! ## Decoding: words from the encodings of 30_encoding.md -/

theorem test_decode_cmd :
    decode (.cmd 0x00000000) = .nop ∧ decode (.cmd 0x00000001) = .send ∧ decode (.cmd 0x00000002) = .rxEnable ∧
    decode (.cmd 0x00000003) = .rxDisable ∧ decode (.cmd 0x00000004) = .softReset ∧
    decode (.cmd 0x80000001) = .cmdReserved 0x80000001 := by decide

/-- Among them R116: an ESC before the closing FLAG, and bytes that are no Raw Frame; the last of these decode, to `[5D]`,
by a pair that no encoder sends (log 2). -/
theorem test_decode_wire_hdr_frame :
    decode (.wire 0b01111110 none) = .wireFlag ∧ decode (.wire 0b01111101 (some 0x5E)) = .wireEsc 0x5E ∧
    decode (.wire 0x61 none) = .wireLit 0x61 ∧ decode (.wire 0x61 (some 0x7E)) = .wireLit 0x61 ∧
    decode (.wire 0b01111101 none) = .frUnescape [0x7D] ∧ decode (.wire 0b01111101 (some 0x7E)) = .frUnescape [0x7D] ∧
    decode (.hdr 0b00000001) = .hdr true ∧ decode (.hdr 0xFE) = .hdr false ∧
    decode (.frame [0x7E, 0x61, 0x43, 0xBE, 0xB7, 0xE8, 0x7E]) = .frame [0x61] ∧
    decode (.frame [0x7E, 0x61, 0x43, 0xBE, 0xB7, 0xE9, 0x7E])
      = .frDecode (bitsOf [0x7E, 0x61, 0x43, 0xBE, 0xB7, 0xE9, 0x7E]) 1029 ∧
    decode (.frame [0x7E, 0x7E]) = .frDecode (bitsOf [0x7E, 0x7E]) 1029 ∧
    frDecode (bitsOf [0x7E, 0x7D, 0x7D, 0xC4, 0xC2, 0xD8, 0xC7, 0x7E]) 1029 = .ok [0x5D] ∧
    decode (.frame [0x7E, 0x7D, 0x7D, 0xC4, 0xC2, 0xD8, 0xC7, 0x7E])
      = .frDecode (bitsOf [0x7E, 0x7D, 0x7D, 0xC4, 0xC2, 0xD8, 0xC7, 0x7E]) 1029 := by decide +kernel

theorem test_decode_evt :
    decode (.tick true false) = .tick true false ∧ decode (.tick false true) = .tick false true ∧
    decode .reset = .reset ∧ decode .ackStrobe = .ackCapture := by decide

theorem test_decode_bus :
    decode (.bus ⟨.rd, .reg, 0x34, 4⟩) = .regRd 0x34 ∧ decode (.bus ⟨.wr 1, .reg, 0x00, 4⟩) = .regWr 0x00 1 ∧
    decode (.bus ⟨.rd, .rxbuf, 5, 1⟩) = .bufRd .rxbuf 5 ∧ decode (.bus ⟨.rd, .txbuf, 5, 1⟩) = .bufRd .txbuf 5 ∧
    decode (.bus ⟨.wr 0xAA, .txbuf, 31, 1⟩) = .bufWr 31 0xAA ∧
    decode (.bus ⟨.wr 4, .reg, 0x04, 4⟩) = .regWrFlags 4 ∧ decode (.bus ⟨.wr 5, .reg, 0x08, 4⟩) = .regWrIrqEn 5 ∧
    decode (.bus ⟨.wr 2, .reg, 0x30, 4⟩) = .regWrTxLen 2 ∧ decode (.bus ⟨.wr 7, .reg, 0x2C, 4⟩) = .regWrPeerId 7 ∧
    decode (.bus ⟨.wr 1, .reg, 0x10, 4⟩) = .regWrCfgMode 1 ∧ decode (.bus ⟨.wr 2, .reg, 0x14, 4⟩) = .regWrCfgTslot 2 ∧
    decode (.bus ⟨.wr 600, .reg, 0x18, 4⟩) = .regWrCfgTidle 600 ∧
    decode (.bus ⟨.wr 900, .reg, 0x1C, 4⟩) = .regWrCfgTack 900 ∧
    decode (.bus ⟨.wr 2, .reg, 0x20, 4⟩) = .regWrCfgMaxRetry 2 ∧
    decode (.bus ⟨.wr 0, .reg, 0x24, 4⟩) = .regWrCfgAmbig 0 := by decide

/-- R79, R111, R232: everything else is `BUS.ERROR`, a value wider than the access among it. -/
theorem test_decode_bus_error :
    decode (.bus ⟨.rd, .reg, 0x06, 4⟩) = .busError ⟨.rd, .reg, 0x06, 4⟩ ∧
    decode (.bus ⟨.wr 1, .rxbuf, 0, 1⟩) = .busError ⟨.wr 1, .rxbuf, 0, 1⟩ ∧
    decode (.bus ⟨.wr 0x80000001, .reg, 0x00, 2⟩) = .busError ⟨.wr 0x80000001, .reg, 0x00, 2⟩ ∧
    decode (.bus ⟨.wr 0xFFFFFFFF, .txbuf, 0, 0⟩) = .busError ⟨.wr 0xFFFFFFFF, .txbuf, 0, 0⟩ := by decide

theorem test_decode_txv :
    decode (.txv 0b0011111) = .txHoldIdle ∧ decode (.txv 0b1110101) = .txHoldFailed ∧
    decode (.txv 0b0101011) = .txWaitSlot ∧ decode (.txv 0b0110111) = .txEmit ∧ decode (.txv 0b0111111) = .txEmitLast ∧
    decode (.txv 0b1011111) = .txAcked ∧ decode (.txv 0b1011001) = .txWait ∧ decode (.txv 0b1000010) = .txRetx ∧
    decode (.txv 0b1011011) = .txFail := by decide

theorem test_decode_rxv :
    decode (.rxvP1 false false true) = .rxIgnore ∧ decode (.rxvP1 false true false) = .rxStart ∧
    decode (.rxvP1 true true true) = .rxCapture ∧ decode (.rxvP3 (.opened true)) = .rxWaitStart ∧
    decode (.rxvP3 (.wasOpen false true false)) = .rxWaitCapture ∧
    decode (.rxvP3 (.wasOpen true false false)) = .rxWaitQuiet ∧
    decode (.rxvP3 (.wasOpen true false true)) = .rxClose := by decide

theorem test_decode_rxo :
    decode (.rxo (.err .crcMismatch) true true) = .rxDropErr .crcMismatch ∧
    decode (.rxo (.ok []) true true) = .rxDropHdr ∧ decode (.rxo (.ok [0x01, 0x21]) true true) = .rxDup true ∧
    decode (.rxo (.ok [0xFE]) false true) = .rxBusy false ∧
    decode (.rxo (.ok [0x01, 0x21]) false false) = .rxDeliver true [0x21] := by decide

theorem test_decode_func :
    decode (.func (.btEncode [false, true] 50 10)) = .btEncode [false, true] 50 10 ∧
    decode (.func (.btSlot (-6) 10)) = .btSlot (-6) 10 ∧
    decode (.func (.btDecodeFixed [110, 121] 100 10 610 1)) = .btDecodeFixed [110, 121] 100 10 610 1 ∧
    decode (.func (.btDecodeReanchor [0, 10] (-10) 10 6 1)) = .btDecodeReanchor [0, 10] (-10) 10 6 1 ∧
    decode (.func (.assemble [1, 2, 5] 6)) = .assemble [1, 2, 5] 6 ∧
    decode (.func (.crc32 [0x61])) = .crc32 [0x61] ∧ decode (.func (.crc32le [0x61])) = .crc32le [0x61] ∧
    decode (.func (.frEscape [0x7E])) = .frEscape [0x7E] ∧ decode (.func (.frEncode [0x61])) = .frEncode [0x61] ∧
    decode (.func (.frUnescape [0x7D, 0x5E])) = .frUnescape [0x7D, 0x5E] ∧
    decode (.func (.frDecode [false, true] 37)) = .frDecode [false, true] 37 := by decide

theorem test_decode_table_words :
    decodeTableWord 32 3 = some .rxDisable ∧ decodeTableWord 8 0x7E = some .wireFlag ∧
    decodeTableWord 8 0x7D = some (.wireEsc 0) ∧ decodeTableWord 8 0x01 = some (.hdr true) := by decide

/-! ## Small states -/

/-- After `WR PEER_ID, 0x2002`, `WB TXBUF[0], 0x61`, `WR TX_LEN, 1`. -/
def ready : State :=
  { State.reset with peerId := 0x2002, peerValid := true, txLen := 1, mem := [(0x400, 0x61)] }

/-- In SENDING, the frame of `00 61`, `TX_T0 = 0`. -/
def sending : State := ready.doSend

/-- The state before vectors T5 to T11: a frame of 144 bits, `TX_T0 = 100`, `T = 10`, `T_ACK = 12000`. -/
def sendingT : State :=
  { State.reset with
    now := 1530, txState := .sending, txT0 := 100, txIdx := 143, peerValid := true
    txFrame := [0x7E, 0x00, 0x48, 0x65, 0x6C, 0x6C, 0x6F, 0x20, 0x57, 0x6F, 0x72, 0x6C, 0x64, 0xD5, 0xC6, 0x45, 0x5A,
      0x7E] }

/-- In WAITING_ACK at its deadline. -/
def waiting : State := { sendingT with now := 13530, txState := .waitingAck, txIdx := 144, txDeadline := 13530 }

/-- Armed, `now = 207`. -/
def armed : State := { ready with rxEn := true, now := 207 }

/-- A window whose bitstream is the bytes given, stamped at their nominal instants from 0 with `T = 10`. -/
def heard (bytes : List Byte) : State :=
  { armed with
    rxState := .receiving, rxTs := pulseTimes (bitsOf bytes) 0 10, rxTfirst := 10
    rxTlast := (pulseTimes (bitsOf bytes) 0 10).foldl max 0
    now := (pulseTimes (bitsOf bytes) 0 10).foldl max 0 + 3001 }

/-- What a reader of the state after an operation sees. -/
def seen {α : Type} (i : Instr) (s : State) (f : State → α) : Option α :=
  match exec i s with
  | .next t => some (f t)
  | .fault _ => none
  | .refused _ => none

/-! ## One step: the sender (vectors T1 to T11, T12) -/

theorem test_t1_hold_idle : seen (.tick false true) ready (fun t => (t.txState, t.ackSeen, t.dataOut))
    = some (.idle, false, false) := by decide +kernel

theorem test_t2_t4_emit :
    seen (.tick false false) { sendingT with now := 100, txIdx := 0 } (fun t => (t.dataOut, t.txIdx)) = some (false, 1) ∧
    seen (.tick false false) { sendingT with now := 110, txIdx := 1 } (fun t => (t.dataOut, t.txIdx)) = some (true, 2) ∧
    seen .txEmit { sendingT with now := 110, txIdx := 1 } (fun t => (t.dataOut, t.txIdx)) = some (true, 2) := by
  decide +kernel

theorem test_t3_waitslot :
    seen (.tick false false) { sendingT with now := 105, txIdx := 1 } (fun t => (t.dataOut, t.txIdx)) = some (false, 1) ∧
    seen .txWaitSlot { sendingT with now := 105, txIdx := 1 } (fun t => (t.dataOut, t.txIdx)) = some (false, 1) := by
  decide +kernel

theorem test_t5_emitlast :
    seen (.tick false true) sendingT (fun t => (t.dataOut, t.txState, t.txIdx, t.txDeadline, t.ackSeen))
      = some (false, .waitingAck, 144, 13530, false) ∧
    seen .txEmitLast sendingT (fun t => (t.txState, t.txDeadline)) = some (.waitingAck, 13530) := by decide +kernel

theorem test_t6_wait :
    seen (.tick false false) { waiting with now := 13529 } (fun t => (t.txState, t.txRetry)) = some (.waitingAck, 0) ∧
    seen .txWait { waiting with now := 13529 } (fun t => t.txState) = some .waitingAck := by decide +kernel

theorem test_t7_retx :
    seen (.tick false false) waiting (fun t => (t.txState, t.txRetry, t.txT0, t.txIdx)) = some (.sending, 1, 13531, 0) ∧
    seen .txRetx waiting (fun t => (t.txState, t.txRetry, t.txT0, t.txIdx)) = some (.sending, 1, 13531, 0) := by
  decide +kernel

theorem test_t8_ack_beats_timeout :
    seen (.tick false true) waiting (fun t => (t.txState, t.txSeq, t.txResult, t.txLastRetries, t.flags))
      = some (.idle, true, .success, 0, 0x01) ∧
    seen .ackCapture waiting (fun t => t.ackSeen) = some true := by decide +kernel

theorem test_t9_fail :
    seen (.tick false false) { waiting with txRetry := 3 } (fun t => (t.txRetry, t.flags, t.txStatus))
      = some (4, 0x02, 0x00000123) ∧
    seen .txFail { waiting with txRetry := 3 } (fun t => t.txStatus) = some 0x00000123 := by decide +kernel

theorem test_t10_hold_failed :
    seen (.tick false true) { waiting with txState := .failed } (fun t => (t.txState, t.ackSeen)) = some (.failed, false) ∧
    seen .txHoldFailed { waiting with txState := .failed } (fun t => t.txState) = some .failed ∧
    seen .txHoldIdle ready (fun t => t.txState) = some .idle := by decide +kernel

theorem test_t11_acked :
    seen .txAcked { waiting with now := 13000, ackSeen := true, txRetry := 2, txSeq := true }
      (fun t => (t.txSeq, t.txLastRetries, t.txRetry, t.txStatus)) = some (false, 2, 0, 0x00010010) := by decide +kernel

/-- Table F3, row `00 7D`: message byte `7D` and a CRC byte `7E`, both escaped. -/
theorem test_send_builds_frame :
    seen .send { ready with mem := [(0x400, 0x7D)] } (fun t => (t.txState, t.txFrame))
      = some (.sending, [0x7E, 0x00, 0x7D, 0x5D, 0x7D, 0x5E, 0x1F, 0x6D, 0x6F, 0x7E]) := by decide +kernel

/-! ## One step: the receiver (vectors RV1 to RV18, X5) -/

theorem test_rv1_ignore :
    seen (.tick true false) ready (fun t => (t.rxState, t.rxTs)) = some (.idle, []) ∧
    seen .rxIgnore ready (fun t => (t.rxState, t.rxTs)) = some (.idle, []) := by decide +kernel

theorem test_rv2_start :
    seen (.tick true false) armed (fun t => (t.rxState, t.rxTs, t.rxTfirst, t.rxTlast))
      = some (.receiving, [207], 207, 207) ∧
    seen .rxStart armed (fun t => (t.rxState, t.rxTs)) = some (.receiving, [207]) := by decide +kernel

theorem test_rv3_rv8_capture :
    seen (.tick true false) { armed with rxState := .receiving, rxTs := [207], rxTlast := 207, now := 217 }
      (fun t => (t.rxTs, t.rxTlast)) = some ([207, 217], 217) ∧
    seen .rxCapture { armed with rxState := .receiving, rxTs := List.replicate 610 1, rxTlast := 207, now := 217 }
      (fun t => (t.rxTs.length, t.rxTlast, t.flags)) = some (610, 217, 0x20) := by decide +kernel

theorem test_rv4_wait :
    seen (.tick false false) { armed with rxState := .receiving, rxTs := [1617], rxTlast := 1617, now := 4617 }
      (fun t => (t.rxState, t.rxTs)) = some (.receiving, [1617]) ∧
    seen .rxWaitQuiet { armed with rxState := .receiving, rxTs := [1617], rxTlast := 1617, now := 4617 }
      (fun t => t.rxState) = some .receiving := by decide +kernel

theorem test_rv6_pulse_extends :
    seen (.tick true false) { armed with rxState := .receiving, rxTs := [1617], rxTlast := 1617, now := 4618 }
      (fun t => (t.rxState, t.rxTlast)) = some (.receiving, 4618) ∧
    seen .rxWaitCapture { armed with rxState := .receiving, rxTlast := 4618, now := 4618 } (fun t => t.rxState)
      = some .receiving ∧
    seen .rxWaitStart { armed with rxState := .receiving, rxTlast := 207 } (fun t => t.rxState) = some .receiving := by
  decide +kernel

theorem test_rv9_deliver :
    seen .rxClose (heard [0x7E, 0x00, 0x48, 0x69, 0xE3, 0xC5, 0x8F, 0xF3, 0x7E])
      (fun t => (t.mem, t.rxLen, t.flags, t.ackOut, t.rxStatus))
      = some ([(0x400, 0x61), (0x800, 0x48), (0x801, 0x69)], 2, 0x04, true, 0x00000016) := by decide +kernel

theorem test_rv10_dup :
    seen .rxClose { heard [0x7E, 0x00, 0x48, 0x69, 0xE3, 0xC5, 0x8F, 0xF3, 0x7E] with rxSession := true }
      (fun t => (t.rxLen, t.flags, t.ackOut, t.rxStatus)) = some (0, 0x08, true, 0x00000026) ∧
    seen (.rxDup true) { armed with rxSession := true, rxLastSeq := true } (fun t => (t.flags, t.ackOut))
      = some (0x08, true) := by decide +kernel

theorem test_rv11_busy :
    seen .rxClose { heard [0x7E, 0x01, 0x21, 0xE0, 0x33, 0xAB, 0x14, 0x7E] with rxSession := true, flags := 0x04 }
      (fun t => (t.rxResult, t.flags, t.ackOut, t.rxLen)) = some (.busy, 0x14, false, 0) ∧
    seen (.rxBusy true) { armed with rxSession := true, flags := 0x04 } (fun t => (t.rxResult, t.ackOut))
      = some (.busy, false) := by decide +kernel

theorem test_rv12_deliver_next :
    seen .rxClose { heard [0x7E, 0x01, 0x21, 0xE0, 0x33, 0xAB, 0x14, 0x7E] with rxSession := true }
      (fun t => (t.mem.read 0x800, t.rxLen, t.rxStatus)) = some (0x21, 1, 0x0000001E) ∧
    seen (.rxDeliver true [0x21]) { armed with rxSession := true } (fun t => (t.mem.read 0x800, t.rxLastSeq))
      = some (0x21, true) := by decide +kernel

theorem test_rv13_to_rv15_drop_err :
    seen .rxClose (heard [0x7E, 0x00, 0x48, 0x61, 0xE3, 0xC5, 0x8F, 0xF3, 0x7E]) (fun t => (t.rxResult, t.flags, t.ackOut))
      = some (.crcMismatch, 0x10, false) ∧
    seen .rxClose (heard [0x7E]) (fun t => (t.rxResult, t.flags)) = some (.truncated, 0x10) ∧
    seen .rxClose (heard [0x7E, 0x00, 0x8D, 0xEF, 0x02, 0xD2, 0x7D, 0x7E]) (fun t => t.rxResult) = some .escapeError ∧
    seen (.rxDropErr .escapeError) armed (fun t => t.rxResult) = some .escapeError := by decide +kernel

theorem test_rv16_drop_hdr :
    seen .rxClose (heard [0x7E, 0x00, 0x00, 0x00, 0x00, 0x7E]) (fun t => (t.rxResult, t.flags, t.ackOut))
      = some (.headerError, 0x10, false) ∧
    seen .rxDropHdr armed (fun t => t.rxResult) = some .headerError := by decide +kernel

theorem test_rv17_rv18_header_bits :
    seen .rxClose (heard [0x7E, 0xFF, 0x48, 0x69, 0x0E, 0xF1, 0x17, 0x4D, 0x7E]) (fun t => (t.rxResult, t.rxLastSeq))
      = some (.delivered, true) ∧
    seen .rxClose (heard [0x7E, 0x00, 0x8D, 0xEF, 0x02, 0xD2, 0x7E]) (fun t => (t.rxLen, t.flags, t.mem))
      = some (0, 0x04, [(0x400, 0x61)]) := by decide +kernel

/-- Vector B3 inside a window (X5): with `t_ref = RX_TFIRST - T = 100`. -/
theorem test_x5_ambiguity :
    seen .rxClose { armed with rxState := .receiving, rxTs := [110, 121, 129, 165], rxTfirst := 110, rxTlast := 165,
                               now := 3166 } (fun t => (t.rxAmbig, t.flags, t.rxTs)) = some (1, 0x90, []) := by
  decide +kernel

/-! ## One step: the host interface (vectors H1 to H20) -/

theorem test_h1_h2_reads_after_reset :
    seen (.regRd 0x18) State.reset (fun t => t.response) = some (.read 0x00000BB8 true) ∧
    seen (.regRd 0x1C) State.reset (fun t => t.response) = some (.read 0x00002EE0 true) ∧
    seen (.regRd 0x00) State.reset (fun t => t.response) = some (.read 0 true) := by decide +kernel

theorem test_h3_read_only :
    seen (.regWr 0x28 5) ready (fun t => (t.response, t.flags)) = some (.written false, 0) := by decide +kernel

theorem test_h4_now_shadow :
    seen (.regRd 0x44) { ready with now := 0x1FFFFFFFF } (fun t => (t.response, t.nowHiShadow))
      = some (.read 0xFFFFFFFF true, 1) := by decide +kernel

theorem test_h5_h6_flags :
    seen (.regWrFlags 0x00000004) { ready with flags := 0x0D } (fun t => t.flags) = some 0x09 ∧
    seen (.regWrFlags 0xFFFFFF00) { ready with flags := 0x0D } (fun t => t.flags) = some 0x0D := by decide +kernel

theorem test_h7_irq_en : seen (.regWrIrqEn 0x00000105) ready (fun t => t.irqEn) = some 0x05 := by decide +kernel

theorem test_h8_h9_irq :
    ({ ready with flags := 0x04, irqEn := 0x05 } : State).irq = true ∧
    ({ ready with flags := 0x10, irqEn := 0x05 } : State).irq = false := by decide

theorem test_h10_h11_locked_writes :
    seen (.regWrCfgMaxRetry 0x00000104) ready (fun t => t.cfgMaxRetry) = some 4 ∧
    seen (.regWrCfgMode 0xFFFFFFFF) ready (fun t => t.regValue .cfgMode) = some 1 ∧
    seen (.regWrCfgTidle 600) ready (fun t => t.cfgTidle) = some 600 ∧
    seen (.regWrCfgTack 900) ready (fun t => t.cfgTack) = some 900 ∧
    seen (.regWrCfgAmbig 0) ready (fun t => t.cfgAmbig) = some 0 := by decide +kernel

theorem test_h12_h13_locked :
    seen (.regWrCfgTslot 20) sending (fun t => (t.cfgTslot, t.flags, t.errCode.code, t.response))
      = some (10, 0x40, 6, .written true) ∧
    seen (.regWrPeerId 7) armed (fun t => (t.peerId, t.errCode.code)) = some (0x2002, 6) := by decide +kernel

theorem test_h14_h15_bus_errors :
    seen (.regRd 0x4C) ready (fun t => t.response) = some (.read 0 false) ∧
    seen (.busError ⟨.rd, .reg, 0x04, 1⟩) ready (fun t => t.response) = some (.read 0 false) ∧
    seen (.busError ⟨.wr 1, .rxbuf, 0, 1⟩) ready (fun t => t.response) = some (.written false) ∧
    seen (.bufWr 32 1) ready (fun t => (t.response, t.mem)) = some (.written false, [(0x400, 0x61)]) ∧
    seen (.bufRd .rxbuf 32) ready (fun t => t.response) = some (.read 0 false) := by decide +kernel

theorem test_h16_buffer :
    seen (.bufWr 31 0xAA) ready (fun t => (t.response, t.mem)) = some (.written true, [(0x400, 0x61), (0x41F, 0xAA)]) ∧
    seen (.bufRd .txbuf 0) ready (fun t => t.response) = some (.read 0x61 true) := by decide +kernel

theorem test_h18_h19_commands :
    seen .nop armed (fun t => (t.flags, t.response)) = some (0, .written true) ∧
    seen (.cmdReserved 0x80000001) armed (fun t => (t.flags, t.errCode.code)) = some (0x40, 1) ∧
    seen (.regWr 0x00 0x00000100) armed (fun t => (t.flags, t.errCode.code)) = some (0x40, 1) := by decide +kernel

theorem test_h20_soft_reset :
    seen .softReset { waiting with txSeq := true, rxEn := true, flags := 0x04, peerId := 0x2002, irqEn := 5 }
      (fun t => (t.txStatus, t.rxStatus, t.flags, t.peerId, t.irqEn, t.now)) = some (0, 0, 0, 0x2002, 5, 13530) := by
  decide +kernel

theorem test_reset : seen .reset { waiting with irqEn := 5, mem := [(0x800, 1)] } (fun t => (t.now, t.irqEn, t.mem))
    = some (0, 0, []) := by decide +kernel

theorem test_rx_enable :
    seen .rxEnable ready (fun t => t.rxEn) = some true ∧
    seen .rxEnable State.reset (fun t => (t.rxEn, t.errCode.code)) = some (false, 4) ∧
    seen .rxDisable armed (fun t => t.rxEn) = some false ∧
    seen (.regWrTxLen 40) sending (fun t => t.txLen) = some 40 := by decide +kernel

/-! ## The codecs (W-, B- and F-vectors) -/

theorem test_wire_rows :
    seen (.wireEsc 0x5E) ready (fun t => t.response) = some (.bodyByte 0x7E) ∧
    seen (.wireLit 0x61) ready (fun t => t.response) = some (.bodyByte 0x61) ∧
    seen .wireFlag ready (fun t => t.response) = some .delimiter ∧
    seen (.hdr true) ready (fun t => t.response) = some (.seqBit true) ∧
    seen (.frame []) ready (fun t => t.response) = some (.slots (bitsOf [0x7E, 0, 0, 0, 0, 0x7E])) := by decide +kernel

theorem test_b1_encode :
    btEncode [false, true, true, false] 50 10 = [(50, false), (60, true), (70, true), (80, false)] ∧
    seen (.btEncode [] 7 3) ready (fun t => t.response) = some (.actions []) := by decide +kernel

theorem test_b2_slots :
    [-6, -5, -4, 0, 4, 5, 6, 14, 15, 16, 25, 65].map (btSlot · 10) = [-1, -1, 0, 0, 0, 0, 1, 1, 1, 2, 2, 6] ∧
    [1, 2, 3].map (btSlot · 2) = [0, 1, 1] ∧
    seen (.btSlot 8 5) ready (fun t => t.response) = some (.slot 2) := by decide +kernel

theorem test_b3_b12_b15_fixed :
    btDecodeFixed [110, 121, 129, 165] 100 10 610 1 = ⟨[false, true, true, true, false, false, true, false], 1, false⟩ ∧
    btDecodeFixed [990, 994, 1020] 1000 10 610 1 = ⟨[true, false, true, false], 1, false⟩ ∧
    seen (.btDecodeFixed [0, 10, 40] (-10) 10 6 1) ready (fun t => t.response)
      = some (.recovered [false, true, true, false] 0 true) := by decide +kernel

theorem test_b4_b8_reanchor :
    btDecodeReanchor [110, 121, 129, 165] 100 10 610 1
      = ⟨[false, true, true, true, false, false, false, true, false], 1, false⟩ ∧
    seen (.btDecodeReanchor [1004, 1016, 1035, 1056] 1000 10 610 1) ready (fun t => t.response)
      = some (.recovered [true, true, false, true, false, true, false] 1 false) := by decide +kernel

theorem test_b14_assemble :
    seen (.assemble [1, 2, 4] 6) ready (fun t => t.response)
      = some (.assembled [false, true, true, false, true, false] false) := by decide +kernel

theorem test_f1_crc :
    crc32 [0x61, 0x62, 0x63] = 0x352441C2 ∧ crc32le [0x00, 0x7E, 0x7D] = [0xEB, 0x80, 0x49, 0x60] ∧
    seen (.crc32 [0x7E]) ready (fun t => t.response) = some (.crc 0x65BFB3B6) ∧
    seen (.crc32le [0x5D]) ready (fun t => t.response) = some (.bytes [0xC4, 0xC2, 0xD8, 0xC7]) := by decide +kernel

theorem test_f2_f3_encode :
    seen (.frEscape [0x00, 0x7E, 0x7D, 0x5E, 0x5D]) ready (fun t => t.response)
      = some (.bytes [0x00, 0x7D, 0x5E, 0x7D, 0x5D, 0x5E, 0x5D]) ∧
    seen (.frEncode [0x5E]) ready (fun t => t.response)
      = some (.bytes [0x7E, 0x5E, 0x7D, 0x5E, 0x93, 0xD1, 0x5E, 0x7E]) := by decide +kernel

theorem test_f4_decode :
    seen (.frDecode (true :: false :: true :: (bitsOf [0x7E, 0x61, 0x43, 0xBE, 0xB7, 0xE8, 0x7E] ++ [false])) 37) ready
      (fun t => t.response) = some (.verdict (.ok [0x61])) ∧
    frDecode (bitsOf [0x7E, 0x7D, 0x7E]) 37 = .err .escapeError ∧
    frDecode (bitsOf [0x7E, 0x7E, 0x61, 0x43, 0xBE, 0xB7, 0xE8, 0x7E]) 37 = .err .truncated ∧
    frDecode (bitsOf [0x7E, 0x00, 0x00, 0x00, 0x7E]) 37 = .err .truncated ∧
    frDecode (bitsOf [0x7E, 0x5E, 0xB6, 0xB3, 0xBF, 0x65, 0x7E]) 37 = .err .crcMismatch ∧
    seen (.frUnescape [0x7D, 0x7D]) ready (fun t => t.response) = some (.verdict (.ok [0x5D])) := by decide +kernel

/-! ## A step, and the word the host places -/

theorem test_step_runs_placed_word :
    (match step (ready.withFetchWord 32 2) with | .next t => (t.rxEn, t.script) | _ => (false, [])) = (true, []) ∧
    (match step ready with | .next t => t.now | _ => 0) = 1 ∧
    (match step { ready with script := [.bus ⟨.wr 0x80000001, .reg, 0, 2⟩] } with
      | .next t => (t.response, t.flags) | _ => (.none, 1)) = (.written false, 0) ∧
    (match step { ready with script := [.frame [0x7E, 0x7E]] } with | .next t => t.response | _ => .none)
      = .verdict (.err .truncated) := by decide +kernel

/-! ## Witnesses: states and operands that meet the hypotheses of each statement, at the ends of their ranges -/

/-- A frame in flight with `T = 1`, `T_ACK = 1` and no retries: 64 bits, so the attempt fails in its 65th tick. -/
def brief : State := { ready with cfgTslot := 1, cfgTack := 1, cfgMaxRetry := 0 }.doSend

theorem ready_inv : ready.Inv := by
  have hm : ∀ c ∈ ready.mem, Build.inBuffers ready.build c.1 := by
    intro c hc
    rw [show ready.mem = [(0x400, 0x61)] from rfl, List.mem_singleton] at hc
    rw [hc]; exact .inl (by decide)
  refine ⟨by decide, by decide +kernel, ?_, ?_, ?_, ?_, ?_, ?_, ?_, ?_, ?_, ?_, ?_, by decide, by decide, hm⟩
  · rintro (h | h) <;> cases h
  · intro h; cases h
  · intro h; cases h
  · rintro (h | h) <;> cases h
  · rintro (h | h) <;> cases h
  · intro h; cases h
  · intro t ht; cases ht
  · exact Nat.zero_le _
  · intro _; rfl
  · intro h; cases h
  · rintro (h | h) <;> cases h

theorem sending_inv : sending.Inv := ready_inv.doSend

theorem brief_inv : brief.Inv :=
  (ready_inv.setConfig (by decide) ready.reanchor 1 ready.cfgTidle 1 0 ready.cfgAmbig ready.peerId ready.peerValid).doSend

theorem inv_nextBit {s : State} (h : s.Inv) (h1 : 1 < s.txNbits) (h2 : s.now ≤ s.txT0 + 1 * s.tslot) :
    State.Inv { s with txIdx := 1 } :=
  ⟨h.build_ok, h.times_fit, h.frame_size, fun _ => h1, fun _ => h2, h.active_config, h.armed_config, h.window_open,
    h.entries_past, h.entries_fit, h.window_closed, h.ack_waiting, h.retry_bound, h.length_bound, h.mem_canonical,
    h.mem_in_buffers⟩

/-- The stamps of a schedule meet the bounds of both modes. -/
theorem gaps_pulseTimes (bits : List Bool) (t0 T : Nat) (hT : 1 ≤ T) :
    gapsInSlots (t0 : Int) T bits (pulseTimes bits t0 T) := by
  rw [pulseTimes_eq]
  refine ⟨by simp, ?_, ?_⟩
  · intro k t hk ht
    rw [List.getElem?_map, hk] at ht
    simp only [Option.map_some, Option.some.injEq] at ht
    subst ht; push_cast
    constructor <;> ring_nf <;> omega
  · intro i k k' t t' hk hk' ht ht'
    rw [List.getElem?_map, hk] at ht
    rw [List.getElem?_map, hk'] at ht'
    simp only [Option.map_some, Option.some.injEq] at ht ht'
    subst ht; subst ht'; push_cast
    constructor <;> ring_nf <;> omega

theorem last_one_010 : isLastOne [false, true, false] 1 := by
  refine ⟨rfl, fun j hj => ?_⟩
  rcases j with _ | _ | _ | j
  · omega
  · omega
  · decide
  · simp

/-- O1: every operand at the end of what its format admits. -/
theorem test_witness_DecodeEncodeAgree :
    (Instr.frame (List.replicate 1025 0x7E)).wf = true ∧ (Instr.cmdReserved 5).wf = true ∧
    (Instr.cmdReserved 0xFFFFFFFF).wf = true ∧ (Instr.rxDeliver true (List.replicate 1024 0)).wf = true ∧
    (Instr.busError ⟨.rd, .reg, 0x48, 1⟩).wf = true ∧ (Instr.regWr 0x48 1).wf = true := by decide +kernel

/-- O2: one record of each of the six formats, at the ends of what it may hold. -/
theorem test_witness_WordsHaveOneMeaning :
    usedWhole (.cmd 0xFFFFFFFF) ∧ usedWhole (.wire 0x7D (some 0xFF)) ∧ usedWhole (.wire 0xFF none) ∧
    usedWhole (.tick true true) ∧ usedWhole (.bus ⟨.wr 255, .txbuf, 31, 1⟩) ∧
    usedWhole (.bus ⟨.wr 0xFFFFFFFF, .reg, 0x48, 4⟩) ∧ usedWhole (.func (.btSlot (-1) 1)) ∧
    usedWhole (.frame (frEncode (List.replicate 1025 0x7E))) := by
  refine ⟨trivial, ⟨0xFF, rfl, by decide⟩, rfl, trivial, ?_, ?_, trivial, ⟨_, (List.length_replicate ..).le, rfl⟩⟩
  · intro v h _; injection h with h; subst h; decide
  · intro v _ h; cases h

/-- O3: widths beside the legal one. -/
theorem test_witness_SpecWordsDecode : (3 : Nat) ≠ 4 ∧ (5 : Nat) ≠ 4 ∧ (0 : Nat) ≠ 4 := by decide

/-- O4: an empty script, and one with a record. -/
theorem test_witness_StepRunsDecodedOperation :
    State.reset.script = [] ∧ (State.reset.withFetchWord 32 2).script = [.cmd 2] ∧ decode (.cmd 2) = .rxEnable := by
  decide

/-- O5, O49, O50, O51: inside the no-overflow premise and outside it. -/
theorem test_witness_timeOk :
    sending.timeOk = true ∧ waiting.timeOk = true ∧ sendingT.timeOk = true ∧
    (heard [0x7E]).timeOk = true ∧ ({ ready with now := 2 ^ 64 - 1 } : State).timeOk = false := by decide +kernel

/-- O7: each outcome has a verdict whose payload fits, the longest included. -/
theorem test_witness_OutcomeTable :
    (0x01#8 :: List.replicate 32 0).length ≤ ready.build.frPayloadMax ∧ ([] : List Byte).length ≤ ready.build.frPayloadMax ∧
    armed.rxoVector (.err .truncated) = 0b0000 ∧ armed.rxoVector (.ok []) = 0b1000 ∧
    ({ armed with rxSession := true } : State).rxoVector (.ok [0]) = 0b1110 ∧
    ({ armed with flags := 4 } : State).rxoVector (.ok [0]) = 0b1101 ∧ armed.rxoVector (.ok [1]) = 0b1100 := by
  decide +kernel

/-- O8: the slot at a tie and on either side of it, with the least T. -/
theorem test_witness_SlotIsNearest : btSlot 5 10 = 0 ∧ btSlot 6 10 = 1 ∧ btSlot (-5) 10 = -1 ∧ btSlot (-1) 1 = -1 := by
  decide +kernel

/-- O9: a bit at an index. -/
theorem test_witness_ScheduleOfBits : [true, false][0]? = some true ∧ [true, false][1]? = some false := by decide

/-- O10: rising stamps, with a predecessor and a successor. -/
theorem test_witness_SlotPlacement :
    strictlyRising [1000, 1015] = true ∧ [1000, 1015][0]? = some 1000 ∧ [1000, 1015][0 + 1]? = some 1015 := by decide

/-- O11: every slot beyond W - 2; a largest slot kept; a bit inside. -/
theorem test_witness_AssembleBits :
    (∀ k ∈ [5, 6], 6 < k + 2) ∧ (4 ∈ [1, 4, 5] ∧ 4 + 2 ≤ 6 ∧ ∀ k ∈ [1, 4, 5], k + 2 ≤ 6 → k ≤ 4) ∧ 5 < 4 + 2 := by decide

/-- O12: the reference `t0`, the first pulse less `T`, and a Raw Frame that just fits. -/
theorem test_witness_EncodeDecodeInverse :
    isLastOne [false, true, false] 1 ∧ 1 ≤ 1 ∧ 1 + 2 ≤ 3 ∧ 2 * 0 < 1 ∧
    (∃ rest, [false, true, false] = false :: true :: rest) ∧ (pulseTimes [false, true, false] 5 1).head? = some 6 ∧
    (5 : Int) = ((6 : Nat) : Int) - (1 : Nat) ∧ (bitsOf (frEncode [0x61])).length ≤ 56 :=
  ⟨last_one_010, by decide, by decide, by decide, ⟨_, rfl⟩, by decide, by decide, by decide +kernel⟩

/-- O13: a stamp at the late end of its slot, and gaps. -/
theorem test_witness_TimingRobustness :
    isLastOne [false, true, false] 1 ∧ stampedInSlots 100 10 [false, true, false] [115] ∧
    gapsInSlots ((100 : Nat) : Int) 10 [false, true, false] (pulseTimes [false, true, false] 100 10) :=
  ⟨last_one_010, List.Forall₂.cons (by decide) List.Forall₂.nil, gaps_pulseTimes _ _ _ (by decide)⟩

/-- O15: a rest that unescapes and one that does not. -/
theorem test_witness_EscapingIsReversed :
    frUnescape [0x7D, 0x5E] = .ok [0x7E] ∧ frUnescape [0x61, 0x7D] = .err .escapeError ∧ (0x61#8 ≠ 0x7D#8) := by decide

/-- O16: the longest payload of the default instance. -/
theorem test_witness_EncodedFrameShape : (List.replicate 33 (0x7E : Byte)).length ≤ Build.default.frPayloadMax := by decide

/-- O17: the first and the last bit of a byte. -/
theorem test_witness_BitSerialisation :
    0 < 8 ∧ 7 < 8 ∧ ([0x7E, 0x01] : List Byte)[1]? = some 0x01 ∧ 8 * 0 + 8 ≤ flagBits.length := by decide

/-- O18: bits before a frame that open no FLAG, and both sides of the bound. -/
theorem test_witness_FrameRoundTrip :
    (∀ j, j < 3 → ¬ flagBits <+: ([true, false, true] ++ bitsOf (frEncode [0x61])).drop j) ∧
    ([0x61] : List Byte).length + 4 ≤ 5 ∧ 4 < ([0x61] : List Byte).length + 4 := by decide +kernel

/-- O19: no FLAG; a FLAG after one bit with no close; raw bytes that fail; a body too short and one of four bytes. -/
theorem test_witness_VerdictPrecedence :
    (∀ o, ¬ opensAt [] o) ∧ opensAt (true :: flagBits) 1 ∧
    0x7E#8 ∉ bytesOf ((true :: flagBits).drop (1 + 8)) ∧
    bytesOf ((bitsOf [0x7E, 0x7D, 0x7E]).drop (0 + 8)) = [0x7D#8] ++ 0x7E#8 :: [] ∧ frUnescape [0x7D] = .err .escapeError ∧
    frUnescape [0, 0, 0] = .ok [0, 0, 0] ∧ frUnescape [0, 0, 0, 0] = .ok ([] ++ [0, 0, 0, 0]) ∧
    ([0, 0, 0, 0] : List Byte) = crc32le [] ∧ ([0, 0, 0, 1] : List Byte) ≠ crc32le [] := by
  refine ⟨?_, ⟨by decide, ?_⟩, by decide, by decide +kernel, by decide, by decide, by decide, by decide +kernel,
    by decide +kernel⟩
  · rintro o ⟨h, -⟩
    have := h.length_le
    simp [flagBits] at this
  · intro j hj
    rw [show j = 0 by omega]; decide

/-- O20: the first byte of a body changed, and its last. -/
theorem test_witness_ByteErrorIsDetected :
    ([0x61] ++ crc32le [0x61])[0]? = some 0x61 ∧ (0x62#8 ≠ 0x61#8) ∧ 1 + 4 ≤ 5 ∧
    0x7E#8 ∉ [0x62#8, 0x43, 0xBE, 0xB7, 0xE8] ∧
    frUnescape [0x62, 0x43, 0xBE, 0xB7, 0xE8] = .ok (([0x61] ++ crc32le [0x61]).set 0 0x62) ∧
    ([0x61] ++ crc32le [0x61])[4]? = some 0xE8 ∧
    frUnescape [0x61, 0x43, 0xBE, 0xB7, 0xE9] = .ok (([0x61] ++ crc32le [0x61]).set 4 0xE9) := by decide +kernel

/-- O22, O25: offsets of no register, between two and beyond the last; read-only offsets. -/
theorem test_witness_RegisterReads_RegisterWrites :
    (∀ r : Reg, r.offset ≠ 0x06) ∧ (∀ r : Reg, r.offset ≠ 0x4C) ∧
    0x48 ∈ [0x0C, 0x28, 0x34, 0x38, 0x3C, 0x40, 0x44, 0x48] := by
  refine ⟨?_, ?_, by decide⟩ <;> intro r <;> cases r <;> decide

/-- O24: ticks after the first read that complete. -/
theorem test_witness_NowReadsConsistent :
    ((runTicks [(true, false), (false, true)] { ready with nowHiShadow := 1, now := 0x1FFFFFFFF }).map State.now)
      = some 0x200000001 ∧ 0x1FFFFFFFF < 2 ^ 64 := by decide +kernel

/-- O26: the bits of a byte. -/
theorem test_witness_FlagsIrqEnTxLenWrites : 0 < 8 ∧ 7 < 8 := by decide

/-- O27, O53: quiescent states, and one of each reason not to be. -/
theorem test_witness_LockedWrites_ConfigurationIsLocked :
    ready.quiescent = true ∧ ({ waiting with txState := .failed } : State).quiescent = true ∧
    sending.quiescent = false ∧ waiting.quiescent = false ∧ armed.quiescent = false ∧
    ({ ready with rxState := .receiving } : State).quiescent = false := by decide +kernel

/-- O28: accesses within the rules at the ends of the spaces, and the first beyond each; a read-only register; a write to
`RXBUF`; a state that is not quiescent. -/
theorem test_witness_BusAccessLegality :
    ready.allows ⟨.rd, .reg, 0x48, 4⟩ ∧ ready.allows ⟨.wr 1, .reg, 0x30, 4⟩ ∧ ready.allows ⟨.wr 255, .txbuf, 31, 1⟩ ∧
    ready.allows ⟨.rd, .rxbuf, 31, 1⟩ ∧ ¬ ready.allows ⟨.rd, .reg, 0x4C, 4⟩ ∧ ¬ ready.allows ⟨.rd, .reg, 0x46, 4⟩ ∧
    ¬ ready.allows ⟨.wr 1, .reg, 0x48, 4⟩ ∧ ¬ ready.allows ⟨.wr 255, .txbuf, 32, 1⟩ ∧
    ¬ ready.allows ⟨.wr 255, .rxbuf, 0, 1⟩ ∧
    (¬((armed.txState = .idle ∨ armed.txState = .failed) ∧ armed.rxState = .idle ∧ armed.rxEn = false)) ∧
    seen (decode (.bus ⟨.wr 255, .txbuf, 32, 1⟩)) ready (fun t => t.response) = some (.written false) := by
  simp only [State.allows]
  decide +kernel

/-- O29, O45: a canonical memory; the last address of a buffer and the first beyond; the longest message. -/
theorem test_witness_BufferAccess_RxOutcomeRows :
    Memory.wf ready.mem = true ∧ 31 < ready.build.maxPayload ∧ ready.build.maxPayload ≤ 32 ∧
    ({ armed with rxSession := true, rxLastSeq := true } : State).isDuplicate true = true ∧
    armed.isDuplicate false = false ∧ ({ armed with flags := 0x04 } : State).flags.getLsbD 2 = true ∧
    armed.flags.getLsbD 2 = false ∧ (List.replicate 32 (0 : Byte)).length ≤ armed.build.maxPayload ∧
    (List.replicate 32 (7 : Byte))[31]? = some 7 := by decide +kernel

/-- O30: the first value that is no command, and the last. -/
theorem test_witness_NopAndReservedCommands : 4 < (5 : Word).toNat ∧ 4 < (0xFFFFFFFF : Word).toNat := by decide

/-- O33: a state for each of the four rejections and one that is accepted, at the bound of `TX_LEN`. -/
theorem test_witness_SendCommand :
    sending.txState = .sending ∧ waiting.txState = .waitingAck ∧ State.reset.peerValid = false ∧
    ready.build.maxPayload < ({ ready with txLen := 33 } : State).txLen.toNat ∧
    ({ ready with txLen := 32 } : State).txLen.toNat ≤ ready.build.maxPayload ∧
    ({ ready with cfgTslot := 0 } : State).cfgOk = false ∧ ({ ready with cfgTidle := 10 } : State).cfgOk = false ∧
    ({ ready with cfgTack := 0 } : State).cfgOk = false ∧ ({ ready with cfgTidle := 11, cfgTack := 1 } : State).cfgOk = true ∧
    ready.peerValid = true ∧ ready.txState = .idle := by decide +kernel

/-- O34 to O37: a sender state for each row; the last tick before the deadline, the deadline, the last retry. -/
theorem test_witness_sender_rows :
    ready.txState = .idle ∧ ({ waiting with txState := .failed } : State).txState = .failed ∧
    ({ sendingT with now := 105, txIdx := 1 } : State).txOp = .waitSlot ∧
    ({ waiting with now := 13529 } : State).txOp = .wait ∧
    ({ sendingT with now := 110, txIdx := 1 } : State).txOp = .emit ∧ sendingT.txOp = .emitLast ∧
    sendingT.txFrame[143 / 8]? = some 0x7E ∧ ({ waiting with ackSeen := true } : State).txOp = .acked ∧
    ({ waiting with txRetry := 2 } : State).txOp = .retx ∧ ({ waiting with txRetry := 3 } : State).txOp = .fail := by
  decide +kernel

/-- O35: a state that meets the invariants and waits for a slot. -/
theorem test_witness_TxIdleRows :
    State.Inv { sending with txIdx := 1 } ∧ ({ sending with txIdx := 1 } : State).txOp = .waitSlot :=
  ⟨inv_nextBit sending_inv (by decide +kernel) (by decide +kernel), by decide +kernel⟩

/-- O38, O39: an attempt of 64 ticks with pulses on both inputs, and the 65th tick of one with no acknowledgment. -/
theorem test_witness_TransmissionPulses_ScheduleToFailure :
    brief.Inv ∧ brief.txState = .sending ∧ brief.txIdx = 0 ∧ brief.txT0 = brief.now ∧ brief.txRetry = 0 ∧
    8 * brief.txFrame.length = 64 ∧ 0 ≤ (8 * brief.txFrame.length - 1) * brief.cfgTslot.toNat ∧
    63 ≤ (8 * brief.txFrame.length - 1) * brief.cfgTslot.toNat ∧ (List.replicate 64 (true, true)).length = 63 + 1 ∧
    brief.timeOkFor 64 ∧ brief.timeOkFor 65 ∧ (∀ x ∈ List.replicate 65 (true, false), x.2 = false) ∧
    64 ≤ (brief.cfgMaxRetry.toNat + 1) * ((8 * brief.txFrame.length - 1) * brief.cfgTslot.toNat + brief.cfgTack.toNat)
      + brief.cfgMaxRetry.toNat ∧
    (List.replicate 65 (true, false)).length = (brief.cfgMaxRetry.toNat + 1)
      * ((8 * brief.txFrame.length - 1) * brief.cfgTslot.toNat + brief.cfgTack.toNat) + brief.cfgMaxRetry.toNat + 1 := by
  refine ⟨brief_inv, ?_⟩
  simp only [State.timeOkFor]
  decide +kernel

/-- O40: an acknowledgment toggles the bit, in a tick and alone; a soft reset clears it. -/
theorem test_witness_SequenceToggles :
    seen (.tick false true) waiting (fun t => t.txSeq != waiting.txSeq) = some true ∧
    seen .txAcked { waiting with ackSeen := true } (fun t => t.txSeq != waiting.txSeq) = some true ∧
    seen .softReset { waiting with txSeq := true } (fun t => t.txSeq) = some false := by decide +kernel

/-- O41: a new frame, and a cleared one. -/
theorem test_witness_RetainedFrame :
    seen .send ready (fun t => decide (t.txFrame ≠ ready.txFrame)) = some true ∧
    seen .reset sending (fun t => decide (t.txFrame ≠ sending.txFrame)) = some true := by decide +kernel

/-- O42: a row that the state does not select. -/
theorem test_witness_UnselectedRowsWriteNothing :
    TxOp.acked ≠ waiting.txOp ∧ ¬(ready.rxState = .idle ∧ ready.rxEn = true) ∧ armed.rxState = .idle ∧
    ¬(armed.rxState = .receiving ∧ armed.rxTlast + armed.cfgTidle.toNat < armed.now) ∧
    armed.flags.getLsbD 2 = false ∧ ({ armed with flags := 4 } : State).flags.getLsbD 2 = true ∧
    ¬(armed.rxSession = true ∧ armed.rxLastSeq = true) := by decide +kernel

/-- O43, O44: each case of the commands and of the capture, with the last free entry, none, and the last silent tick. -/
theorem test_witness_RxEnableDisable_RxCaptureAndWaitRows :
    State.reset.peerValid = false ∧ ready.peerValid = true ∧ ready.cfgOk = true ∧
    ({ ready with cfgTack := 0 } : State).cfgOk = false ∧ (ready.rxState = .idle ∧ ready.rxEn = false) ∧
    (armed.rxState = .idle ∧ armed.rxEn = true) ∧
    (List.replicate 609 0).length < ready.build.rxTsDepth ∧ ready.build.rxTsDepth ≤ (List.replicate 610 0).length ∧
    ((4617 : Nat) : Int) - ((1617 : Nat) : Int) ≤ (ready.cfgTidle.toNat : Int) := by decide +kernel

/-- O46: a window that is due, in the first tick past the threshold, with each kind of verdict. -/
theorem test_witness_RxCloseRow :
    (heard [0x7E, 0x00, 0x48, 0x69, 0xE3, 0xC5, 0x8F, 0xF3, 0x7E]).idleExpired = true ∧
    (heard [0x7E, 0x00, 0x48, 0x69, 0xE3, 0xC5, 0x8F, 0xF3, 0x7E]).rxState = .receiving ∧
    (heard [0x7E, 0x00, 0x48, 0x69, 0xE3, 0xC5, 0x8F, 0xF3, 0x7E]).windowVerdict = .ok [0x00, 0x48, 0x69] ∧
    (heard [0x7E, 0x00, 0x00, 0x00, 0x00, 0x7E]).windowVerdict = .ok [] ∧
    (heard [0x7E]).windowVerdict = .err .truncated := by decide +kernel

/-- O47: a frame of a header byte and a message, stamped at its nominal instants, in both modes. -/
theorem test_witness_FrameIsDelivered :
    (heard (frEncode [0x00, 0x61])).build.wf ∧ Memory.wf (heard (frEncode [0x00, 0x61])).mem = true ∧
    (heard (frEncode [0x00, 0x61])).rxState = .receiving ∧
    (heard (frEncode [0x00, 0x61])).rxTlast + 3000 < (heard (frEncode [0x00, 0x61])).now ∧
    stampedInSlots 0 10 (bitsOf (frEncode [0x00, 0x61])) (heard (frEncode [0x00, 0x61])).rxTs ∧
    gapsInSlots 0 10 (bitsOf (frEncode [0x00, 0x61])) (heard (frEncode [0x00, 0x61])).rxTs ∧
    (heard (frEncode [0x00, 0x61])).isDuplicate false = false ∧ (heard (frEncode [0x00, 0x61])).hasFlag .rxMsg = false ∧
    ({ heard (frEncode [0x00, 0x61]) with rxSession := true } : State).isDuplicate false = true ∧
    ({ heard (frEncode [0x00, 0x61]) with flags := 4 } : State).hasFlag .rxMsg = true ∧
    ((heard (frEncode [0x00, 0x61])).rxTfirst : Int) - (heard (frEncode [0x00, 0x61])).cfgTslot.toNat = 0 := by
  refine ⟨by decide, by decide, rfl, by decide +kernel, ?_, gaps_pulseTimes _ 0 10 (by decide), by decide +kernel,
    by decide +kernel, by decide +kernel, by decide +kernel, by decide +kernel⟩
  unfold stampedInSlots
  decide +kernel

/-- O48: a delivery changes `RXBUF` and `RX_LEN`, in `RX.CLOSE` and as a row; a soft reset changes `RX_LEN`. -/
theorem test_witness_RxbufOwnership :
    armed.build.wf ∧ seen (.rxDeliver false [0x21]) armed (fun t => (t.mem.read 0x800, t.rxLen)) = some (0x21, 1) ∧
    seen .rxClose (heard (frEncode [0x00, 0x61])) (fun t => (t.mem.read 0x800, t.rxLen)) = some (0x61, 1) ∧
    seen .softReset { armed with rxLen := 5 } (fun t => t.rxLen) = some 0 := by decide +kernel

/-- O49: the four pairs of simultaneous events; a window that closes and opens again. -/
theorem test_witness_SimultaneousEvents :
    waiting.txState = .waitingAck ∧ (heard [0x7E]).rxState = .receiving ∧
    (sendingT.now = sendingT.txT0 + sendingT.txIdx * sendingT.cfgTslot.toNat ∧
      sendingT.txIdx + 1 = 8 * sendingT.txFrame.length) ∧
    seen (.tick false false) (heard [0x7E]) (fun t => (t.rxState, t.rxEn, t.timeOk)) = some (.idle, true, true) := by
  decide +kernel

/-- O50: a tick that drives each strobe. -/
theorem test_witness_TickPhases :
    seen (.tick false false) { sendingT with now := 110, txIdx := 1 } (fun t => t.dataOut) = some true ∧
    seen (.tick false false) (heard (frEncode [0x00, 0x61])) (fun t => t.ackOut) = some true := by decide +kernel

/-- O52: a tick, a reset and another operation, each completing. -/
theorem test_witness_NowCountsTicks :
    seen (.tick true true) waiting State.now = some 13531 ∧ seen .reset waiting State.now = some 0 ∧
    seen .softReset waiting State.now = some 13530 := by decide +kernel

/-- O54: states that differ outside what each role reads, and ticks that complete from them. -/
theorem test_witness_RolesDoNotInterfere :
    sameReceiver armed { armed with txState := .waitingAck, txSeq := true, flags := 0x43, irqEn := 1 } ∧
    sameSender waiting { waiting with rxEn := true, flags := 0xBC, rxSession := true } ∧
    seen (.tick true false) armed State.now = some 208 ∧
    seen (.tick true true) { armed with txState := .waitingAck, txSeq := true, flags := 0x43, irqEn := 1 } State.now
      = some 208 ∧
    seen (.tick true false) waiting State.now = some 13531 ∧
    seen (.tick false false) { waiting with rxEn := true, flags := 0xBC, rxSession := true } State.now = some 13531 := by
  refine ⟨⟨rfl, rfl, ⟨rfl, rfl, rfl, rfl⟩, ⟨rfl, rfl, rfl, rfl, rfl⟩, ⟨rfl, rfl⟩, ⟨rfl, rfl, rfl⟩, by decide,
    fun _ => rfl⟩, ⟨rfl, ⟨rfl, rfl, rfl⟩, ⟨rfl, rfl, rfl, rfl, rfl⟩, ⟨rfl, rfl⟩, ⟨rfl, rfl, rfl⟩, by decide⟩, ?_⟩
  decide +kernel

/-- O55: instances at the ends of the constraints of R6. -/
theorem test_witness_ResetMeetsInvariants :
    Build.wf { tsW := 32, maxPayload := 0, rxWindowBits := 98, rxTsDepth := 1, selfId := 1 } ∧
    Build.wf { tsW := 64, maxPayload := 1024, rxWindowBits := 16482, rxTsDepth := 1, selfId := 1 } := by decide

/-- O56: states that meet the invariants and step. -/
theorem test_witness_StepKeepsInvariants :
    sending.Inv ∧ (match step sending with | .next t => t.now | _ => 0) = 1 := ⟨sending_inv, by decide +kernel⟩

/-- O57: an open window with rising stamps, a script of run operations, and a step. -/
theorem test_witness_StampsRise :
    let s : State := { armed with rxState := .receiving, rxTs := [205, 206], rxTfirst := 205, rxTlast := 206,
                                  script := [.tick true false] }
    s.runScript ∧ s.stampsRise ∧ (match step s with | .next t => t.rxTs | _ => []) = [205, 206, 207] := by
  refine ⟨?_, fun _ => ⟨by decide, by decide, by decide⟩, by decide +kernel⟩
  intro r hr
  rw [List.mem_singleton.mp hr]; rfl

/-- O58: each way a pending flag is cleared. -/
theorem test_witness_FlagsAreSticky :
    (Instr.regWrFlags 1).wf = true ∧ ({ ready with flags := 0x05 } : State).hasFlag .txDone = true ∧
    seen (.regWrFlags 1) { ready with flags := 0x05 } (fun t => t.hasFlag .txDone) = some false ∧
    seen .send { ready with flags := 0x05 } (fun t => (t.hasFlag .txDone, t.txState)) = some (false, .sending) ∧
    seen .softReset { ready with flags := 0x05 } (fun t => t.hasFlag .rxMsg) = some false := by decide +kernel

/-- O59: a rejection, and a reset after one. -/
theorem test_witness_RejectionsArePrecise :
    seen .send State.reset (fun t => (t.errCode, t.hasFlag .cmdErr)) = some (.noPeer, true) ∧
    seen (.regWrCfgTslot 1) armed (fun t => t.errCode) = some .locked ∧
    seen .softReset { ready with errCode := .locked } (fun t => t.errCode) = some .none := by decide +kernel

/-- O60: a record of each of the eight formats; the first reserved command; bytes that are no FLAG and no ESC; the longest
payload; bytes that are no Raw Frame; an ESC before the closing FLAG; bodies of 0 and 3 bytes. -/
theorem test_witness_DecodedIsWellFormed :
    [Record.frame [], .wire 0 none, .hdr 0, .cmd 5, .reset, .bus ⟨.rd, .reg, 1, 4⟩, .txv 0,
      .rxvP1 true true true].map Record.fmt = [.frame, .wire, .hdr, .cmd, .evt, .bus, .txv, .rxv] ∧
    4 < (5 : Word).toNat ∧ (0x7C : Byte) ≠ 0x7E ∧ (0x7C : Byte) ≠ 0x7D ∧ (0x7D : Byte) ≠ 0x7E ∧
    (List.replicate 1025 (0x7E : Byte)).length ≤ 1025 ∧ (∀ p : List Byte, p.length ≤ 1025 → frEncode p ≠ []) ∧
    0x7E#8 ∉ [0x61#8, 0x7D] ∧ frUnescape [0x61, 0x7D] = .err .escapeError ∧
    frUnescape [] = .ok [] ∧ frUnescape [1, 2, 3] = .ok [1, 2, 3] ∧ 0x48 % 4 = 0 := by
  refine ⟨by decide, by decide, by decide, by decide, by decide, (List.length_replicate ..).le, ?_, by decide, by decide, by decide, by decide,
    by decide⟩
  intro p _ h; simp [frEncode] at h

end Sys2Proof.Tests
end

section
/-! PROOFS. The scope statements (00_scope.md): the invariants of `State.Inv` hold after reset, and every step keeps them.
The laws of `Sys2Proof/Laws/Invariants.lean` carry them through each shared operation; here stand the reset state, phase
P4 performed alone, and the assembly over what an operation can do (`exec_cases`). -/

namespace Sys2Proof.Machine

/-! The state after reset. -/

theorem State.resetOf_not_txActive (b : Build) : ¬ (State.resetOf b).txActive := by
  simp [State.txActive, State.resetOf]

theorem State.resetOf_not_rxActive (b : Build) : ¬ (State.resetOf b).rxActive := by
  simp [State.rxActive, State.resetOf]

/-- After reset no role is active, every time and length is 0, and no stamp and no byte is stored (10_state.md R52). -/
theorem State.resetOf_inv {b : Build} (hb : b.wf) : (State.resetOf b).Inv where
  build_ok := hb
  times_fit := ⟨Nat.two_pow_pos _, Nat.two_pow_pos _, Nat.two_pow_pos _⟩
  frame_size h := absurd h (State.resetOf_not_txActive b)
  index_in_frame h := absurd (.inl h) (State.resetOf_not_txActive b)
  schedule_ahead h := absurd (.inl h) (State.resetOf_not_txActive b)
  active_config h := absurd h (State.resetOf_not_txActive b)
  armed_config h := absurd h (State.resetOf_not_rxActive b)
  window_open h := absurd (.inr h) (State.resetOf_not_rxActive b)
  entries_past _ ht := absurd ht List.not_mem_nil
  entries_fit := Nat.zero_le _
  window_closed _ := rfl
  ack_waiting h := absurd h Bool.false_ne_true
  retry_bound h := absurd h (State.resetOf_not_txActive b)
  length_bound := Nat.zero_le _
  mem_canonical := rfl
  mem_in_buffers _ hc := absurd hc List.not_mem_nil

theorem State.resetOf_stampsRise (b : Build) : (State.resetOf b).stampsRise :=
  fun h => absurd (.inr h) (State.resetOf_not_rxActive b)

theorem State.resetOf_runScript (b : Build) : (State.resetOf b).runScript :=
  fun _ hr => absurd hr List.not_mem_nil

/-- `RESET` keeps the build-time parameters, and with them the invariants. -/
theorem State.Inv.doReset {s : State} (h : s.Inv) : s.doReset.Inv :=
  (State.resetOf_inv h.build_ok).setScript _

/-! One step. -/

/-- Taking the next record from the script keeps the invariants. -/
theorem State.Inv.fetch {s : State} (h : s.Inv) : s.fetch.2.Inv := by
  simp only [State.fetch]
  split
  · exact h
  · exact h.setScript _

/-- Phase P4 performed alone keeps the invariants: only `TX.EMITLAST` and `TX.RETX` store a sum of times, so only these
two need the no-overflow premise (70_reset_and_hazards.md R304). -/
theorem State.Inv.phaseTx_alone {s : State} (h : s.Inv)
    (ht : s.timeOk = true ∨ (s.txOp ≠ .emitLast ∧ s.txOp ≠ .retx)) : s.phaseTx.Inv := by
  rcases ht with ht | ⟨hlast, hretx⟩
  · exact h.phaseTx ht
  · rw [State.phaseTx_eq]
    cases ho : s.txOp with
    | holdIdle | holdFailed | waitSlot | wait => exact h
    | emit => exact h.doEmit ho
    | acked => exact h.doAcked
    | fail => exact h.doFail
    | emitLast => exact absurd ho hlast
    | retx => exact absurd ho hretx

/-- A byte written inside `TXBUF` keeps the invariants. -/
theorem State.Inv.writeTxbuf_inside {s : State} (h : s.Inv) {a : Nat} (ha : a < s.build.maxPayload) (b : Byte) :
    (State.answer (.written true) { s with mem := s.mem.write (txbufAddr a) b }).Inv := by
  have hw := h.writeTxbuf a b
  rwa [State.writeTxbuf, if_neg (Nat.not_le.mpr ha)] at hw

/-- Every operation that answers a next state keeps the invariants. -/
theorem State.Inv.exec {i : Instr} {s t : State} (h : s.Inv) (he : exec i s = .next t) : t.Inv := by
  rcases exec_cases he with ⟨r, rfl⟩ | ⟨d, a, -, htime, rfl⟩ | ⟨-, rfl⟩ | ⟨v, -, rfl⟩ | ⟨r, v, -, rfl⟩ | ⟨r, -, rfl⟩ |
    ⟨a, b, -, ha, rfl⟩ | ⟨-, rfl⟩ | ⟨-, htime, rfl⟩ | ⟨-, rfl⟩ | ⟨-, rfl⟩ | ⟨v, -, -, -, hlen, rfl⟩
  · exact h.answer r
  · exact h.tick d a htime
  · exact h.doReset
  · exact (h.doCommand v).answer _
  · exact (h.regWrite r v).answer _
  · exact h.frame ..
  · exact h.writeTxbuf_inside ha b
  · exact h.quiet.phaseAck true
  · exact h.quiet.phaseTx_alone htime
  · exact h.quiet.phaseCapture true
  · exact h.quiet.phaseClose
  · exact h.quiet.doOutcome hlen

/-- Settles O56: the record is taken from the script, and the operation it decodes to keeps the invariants. -/
theorem stepKeepsInvariants : Obligations.StepKeepsInvariants :=
  fun _ _ h he => h.fetch.exec he

/-- Settles O55. -/
theorem resetMeetsInvariants : Obligations.ResetMeetsInvariants :=
  ⟨fun b hb => ⟨State.resetOf_inv hb, State.resetOf_stampsRise b, State.resetOf_runScript b⟩, by decide, rfl⟩

end Sys2Proof.Machine
end

section
/-! PROOFS. The statements about the elements of the state (10_state.md): which operations may write each element, and
what the read-outs show. First what an operation, a command and a register write can write at all; then, statement by
statement, the one phase, command or register write that can change the element, and the assembly over the operations. -/

namespace Sys2Proof.Machine

/-! What an operation can do (`exec_cases`), with a name for each case. -/

/-- A write to a register other than `CMD` is to another register than `CMD`. -/
theorem regWriteOf_ne_cmd {i : Instr} {r : Reg} {v : Word} (h : regWriteOf i = some (r, v)) : r ≠ .cmd := by
  rintro rfl
  cases i
  case regWr off w =>
    rw [regWriteOf] at h
    split at h
    · split at h
      · cases h
      next hcmd =>
        obtain ⟨rfl, -⟩ := Prod.mk.inj (Option.some.inj h)
        exact hcmd rfl
    · cases h
  all_goals cases h

/-- The states that `i` can answer at `s`: one constructor for each case of `exec_cases`, with what the statements below
need of it. -/
inductive NextBy (i : Instr) (s : State) : State → Prop
  /-- Nothing but the outputs is written. -/
  | answer (r : Response) : NextBy i s (s.answer r)
  | tick (d a : Bool) (hi : i = .tick d a) : NextBy i s { s.tickPhases d a with now := s.now + 1 }
  | reset (hi : i = .reset) : NextBy i s s.doReset
  /-- A write to `CMD`. -/
  | command (v : Word) (hv : commandOf i = some v) : NextBy i s ((s.doCommand v).answer (.written true))
  /-- A write to a register other than `CMD`. -/
  | regWrite (r : Reg) (v : Word) (hr : regWriteOf i = some (r, v)) (hc : r ≠ .cmd) :
      NextBy i s ((s.regWrite r v).answer (.written true))
  /-- A read of `NOW_LO`. -/
  | readNowLo (r : Response) : NextBy i s (State.answer r { s with nowHiShadow := s.nowHi })
  | writeTxbuf (a : Nat) (b : Byte) (ha : a < s.build.maxPayload) :
      NextBy i s (State.answer (.written true) { s with mem := s.mem.write (txbufAddr a) b })
  /-- The phases performed alone. -/
  | phaseAck : NextBy i s (s.quiet.phaseAck true)
  | phaseTx (hi : i = s.txOp.toInstr) : NextBy i s s.quiet.phaseTx
  | phaseCapture (hi : i = .rxStart ∨ i = .rxCapture) : NextBy i s (s.quiet.phaseCapture true)
  | phaseClose (hi : i = .rxClose) : NextBy i s s.quiet.phaseClose
  /-- An outcome of a decode attempt performed alone. -/
  | outcome (v : Verdict) (hv : verdictOf i = some v) (hdup : ∀ q, i = .rxDup q → s.isDuplicate q = true)
      (hbusy : ∀ q, i = .rxBusy q → s.isDuplicate q = false ∧ s.hasFlag .rxMsg = true) :
      NextBy i s (s.quiet.doOutcome v)

/-- Every next state is one of the named cases. -/
theorem NextBy.of_exec {i : Instr} {s t : State} (h : exec i s = .next t) : NextBy i s t := by
  rcases exec_cases h with ⟨r, rfl⟩ | ⟨d, a, hi, -, rfl⟩ | ⟨hi, rfl⟩ | ⟨v, hv, rfl⟩ | ⟨r, v, hr, rfl⟩ | ⟨r, -, rfl⟩ |
    ⟨a, b, -, ha, rfl⟩ | ⟨-, rfl⟩ | ⟨hi, -, rfl⟩ | ⟨hi, rfl⟩ | ⟨hi, rfl⟩ | ⟨v, hv, hdup, hbusy, -, rfl⟩
  · exact .answer r
  · exact .tick d a hi
  · exact .reset hi
  · exact .command v hv
  · exact .regWrite r v hr (regWriteOf_ne_cmd hr)
  · exact .readNowLo r
  · exact .writeTxbuf a b ha
  · exact .phaseAck
  · exact .phaseTx hi
  · exact .phaseCapture hi
  · exact .phaseClose hi
  · exact .outcome v hv hdup hbusy

/-! What a command and a register write may write: every other field of the state is as before. -/

/-- A write to `CMD` sets flags, `ERR_CODE` or `RX_EN` and nothing else; or it is `SOFT_RESET`; or it is a `SEND` that is
accepted (30_encoding.md R108, R109, 42_arq_sender.md R181). -/
theorem State.doCommand_effect (v : Word) (s : State) :
    (∃ m ec en, s.doCommand v = { s with flags := s.flags ||| m, errCode := ec, rxEn := en }) ∨
    (v = 4 ∧ s.doCommand v = s.doSoftReset) ∨
    (v = 1 ∧ (s.txState = .idle ∨ s.txState = .failed) ∧ s.doCommand v = { s with
      txFrame := s.newFrame, txState := .sending, txT0 := s.now, txIdx := 0, txRetry := 0, txResult := .none,
      ackSeen := false, flags := s.flags &&& ~~~(Flag.txDone.mask ||| Flag.txFail.mask) }) := by
  have hreject (c : ErrCode) : ∃ m ec en, s.raise (.cmdReject c)
      = { s with flags := s.flags ||| m, errCode := ec, rxEn := en } := ⟨_, _, _, rfl⟩
  have henable (en : Bool) : ({ s with rxEn := en } : State)
      = { s with flags := s.flags ||| 0, errCode := s.errCode, rxEn := en } := by simp
  rcases s.doCommand_cases v with ⟨-, e⟩ | ⟨hv, e⟩ | ⟨-, e⟩ | ⟨-, e⟩ | ⟨hv, e⟩ | ⟨c, -, e⟩
  · exact .inl ⟨_, _, _, e.trans (henable s.rxEn)⟩
  · rcases s.doSend_cases with ⟨-, e'⟩ | ⟨hst, ⟨-, e'⟩ | ⟨-, -, e'⟩ | ⟨-, -, -, e'⟩ | ⟨-, -, -, e'⟩⟩
    case inr.inr.inr.inr => exact .inr (.inr ⟨hv, hst, e.trans e'⟩)
    all_goals exact .inl (e ▸ e' ▸ hreject _)
  · exact .inl ⟨_, _, _, e.trans (henable true)⟩
  · exact .inl ⟨_, _, _, e.trans (henable false)⟩
  · exact .inr (.inl ⟨hv, e⟩)
  · exact .inl (e ▸ hreject c)

@[simp] theorem State.doCommand_build (v : Word) (s : State) : (s.doCommand v).build = s.build := by
  rcases s.doCommand_effect v with ⟨_, _, _, e⟩ | ⟨-, e⟩ | ⟨-, -, e⟩ <;> exact (congrArg State.build e :)
@[simp] theorem State.doCommand_now (v : Word) (s : State) : (s.doCommand v).now = s.now := by
  rcases s.doCommand_effect v with ⟨_, _, _, e⟩ | ⟨-, e⟩ | ⟨-, -, e⟩ <;> exact (congrArg State.now e :)
@[simp] theorem State.doCommand_mem (v : Word) (s : State) : (s.doCommand v).mem = s.mem := by
  rcases s.doCommand_effect v with ⟨_, _, _, e⟩ | ⟨-, e⟩ | ⟨-, -, e⟩ <;> exact (congrArg State.mem e :)
@[simp] theorem State.doCommand_script (v : Word) (s : State) : (s.doCommand v).script = s.script := by
  rcases s.doCommand_effect v with ⟨_, _, _, e⟩ | ⟨-, e⟩ | ⟨-, -, e⟩ <;> exact (congrArg State.script e :)

/-- A write to a register other than `CMD` writes the configuration, the enables, the length, `FLAGS` and `ERR_CODE`. -/
theorem State.regWrite_writes {r : Reg} (hc : r ≠ .cmd) (v : Word) (s : State) :
    ∃ re t ti ta mr am p pv ie tl fl ec, s.regWrite r v
      = { s with reanchor := re, cfgTslot := t, cfgTidle := ti, cfgTack := ta, cfgMaxRetry := mr, cfgAmbig := am,
                 peerId := p, peerValid := pv, irqEn := ie, txLen := tl, flags := fl, errCode := ec } := by
  cases r
  case cmd => exact absurd rfl hc
  case peerId | cfgMode | cfgTslot | cfgTidle | cfgTack | cfgMaxRetry | cfgAmbig =>
    rw [State.regWrite, State.writeLocked]
    split <;> exact ⟨_, _, _, _, _, _, _, _, _, _, _, _, rfl⟩
  all_goals exact ⟨_, _, _, _, _, _, _, _, _, _, _, _, rfl⟩

@[simp] theorem State.regWrite_build {r : Reg} (hc : r ≠ .cmd) (v : Word) (s : State) :
    (s.regWrite r v).build = s.build := by
  obtain ⟨_, _, _, _, _, _, _, _, _, _, _, _, e⟩ := State.regWrite_writes hc v s; rw [e]
@[simp] theorem State.regWrite_now {r : Reg} (hc : r ≠ .cmd) (v : Word) (s : State) :
    (s.regWrite r v).now = s.now := by
  obtain ⟨_, _, _, _, _, _, _, _, _, _, _, _, e⟩ := State.regWrite_writes hc v s; rw [e]
@[simp] theorem State.regWrite_mem {r : Reg} (hc : r ≠ .cmd) (v : Word) (s : State) :
    (s.regWrite r v).mem = s.mem := by
  obtain ⟨_, _, _, _, _, _, _, _, _, _, _, _, e⟩ := State.regWrite_writes hc v s; rw [e]
@[simp] theorem State.regWrite_script {r : Reg} (hc : r ≠ .cmd) (v : Word) (s : State) :
    (s.regWrite r v).script = s.script := by
  obtain ⟨_, _, _, _, _, _, _, _, _, _, _, _, e⟩ := State.regWrite_writes hc v s; rw [e]
@[simp] theorem State.regWrite_txSeq {r : Reg} (hc : r ≠ .cmd) (v : Word) (s : State) :
    (s.regWrite r v).txSeq = s.txSeq := by
  obtain ⟨_, _, _, _, _, _, _, _, _, _, _, _, e⟩ := State.regWrite_writes hc v s; rw [e]
@[simp] theorem State.regWrite_txFrame {r : Reg} (hc : r ≠ .cmd) (v : Word) (s : State) :
    (s.regWrite r v).txFrame = s.txFrame := by
  obtain ⟨_, _, _, _, _, _, _, _, _, _, _, _, e⟩ := State.regWrite_writes hc v s; rw [e]
@[simp] theorem State.regWrite_rxLen {r : Reg} (hc : r ≠ .cmd) (v : Word) (s : State) :
    (s.regWrite r v).rxLen = s.rxLen := by
  obtain ⟨_, _, _, _, _, _, _, _, _, _, _, _, e⟩ := State.regWrite_writes hc v s; rw [e]
@[simp] theorem State.regWrite_rxState {r : Reg} (hc : r ≠ .cmd) (v : Word) (s : State) :
    (s.regWrite r v).rxState = s.rxState := by
  obtain ⟨_, _, _, _, _, _, _, _, _, _, _, _, e⟩ := State.regWrite_writes hc v s; rw [e]
@[simp] theorem State.regWrite_rxTs {r : Reg} (hc : r ≠ .cmd) (v : Word) (s : State) :
    (s.regWrite r v).rxTs = s.rxTs := by
  obtain ⟨_, _, _, _, _, _, _, _, _, _, _, _, e⟩ := State.regWrite_writes hc v s; rw [e]
@[simp] theorem State.regWrite_rxTlast {r : Reg} (hc : r ≠ .cmd) (v : Word) (s : State) :
    (s.regWrite r v).rxTlast = s.rxTlast := by
  obtain ⟨_, _, _, _, _, _, _, _, _, _, _, _, e⟩ := State.regWrite_writes hc v s; rw [e]

/-- The row that writes a value to `CMD` performs the command (30_encoding.md R108, 44_host_interface.md R232). -/
theorem exec_of_commandOf {i : Instr} {v : Word} (h : commandOf i = some v) (s : State) :
    exec i s = .next ((s.doCommand v).answer (.written true)) := by
  cases i
  case regWr off w =>
    obtain ⟨rfl, rfl⟩ : off = 0 ∧ w = v := by simpa [commandOf] using h
    rfl
  case nop | send | rxEnable | rxDisable | softReset | cmdReserved =>
    injection h with h
    subst h
    rfl
  all_goals cases h

/-- No operation writes the build-time parameters or the strap (10_state.md R51). -/
theorem exec_build {i : Instr} {s t : State} (h : exec i s = .next t) : t.build = s.build := by
  cases NextBy.of_exec h
  case regWrite r v hr hc => simp [hc]
  case reset hi => rfl
  all_goals simp

/-! `NOW` and the configuration (R23, R36). -/

/-- Of the operations other than a tick and `RESET`, none writes `NOW` (10_state.md R23). -/
theorem exec_now {i : Instr} {s t : State} (h : exec i s = .next t) (htick : ∀ d a, i ≠ .tick d a)
    (hreset : i ≠ .reset) : t.now = s.now := by
  cases NextBy.of_exec h
  case tick d a hi => exact absurd hi (htick d a)
  case reset hi => exact absurd hi hreset
  case regWrite r v hr hc => simp [hc]
  all_goals simp

/-- Settles O52: only a tick and `RESET` write `NOW`, and nothing writes the build-time parameters. -/
theorem nowCountsTicks : Obligations.NowCountsTicks := by
  intro i s t h
  refine ⟨?_, ?_, exec_now h, exec_build h⟩
  · rintro ⟨d, a, rfl⟩
    rw [(execTick_next h).2]
  · rintro rfl
    injection h with h
    rw [← h]; rfl

/-- No command writes a locked register. -/
theorem State.doCommand_sameConfig (v : Word) (s : State) : sameConfig s (s.doCommand v) := by
  rcases s.doCommand_effect v with ⟨_, _, _, e⟩ | ⟨-, e⟩ | ⟨-, -, e⟩ <;> rw [e]
  all_goals exact ⟨rfl, rfl, rfl, rfl, rfl, rfl, rfl, rfl⟩

/-- A write to any register of a state that is not quiescent writes no locked register: those writes are rejected
(10_state.md R36, 44_host_interface.md R238, R239). -/
theorem State.regWrite_sameConfig {s : State} (hq : s.quiescent = false) (r : Reg) (v : Word) :
    sameConfig s (s.regWrite r v) := by
  have hlocked (f : State → State) : sameConfig s (s.writeLocked f) := by
    rw [State.writeLocked, hq]
    exact ⟨rfl, rfl, rfl, rfl, rfl, rfl, rfl, rfl⟩
  cases r
  case cmd => exact s.doCommand_sameConfig v
  case peerId | cfgMode | cfgTslot | cfgTidle | cfgTack | cfgMaxRetry | cfgAmbig =>
    rw [State.regWrite]
    exact hlocked _
  all_goals exact ⟨rfl, rfl, rfl, rfl, rfl, rfl, rfl, rfl⟩

/-- The outputs of an operation are no configuration. -/
theorem sameConfig.answer {s t : State} (h : sameConfig s t) (r : Response) : sameConfig s (t.answer r) :=
  ⟨h.tslot, h.tidle, h.tack, h.maxRetry, h.ambig, h.reanchor, h.peer⟩

/-- Settles O53: while a role is active a write to a locked register is rejected, and nothing else but `RESET` writes
one. -/
theorem configurationIsLocked : Obligations.ConfigurationIsLocked := by
  intro i s t h hreset hactive
  have hq : s.quiescent = false := by rwa [← s.quiescent_iff, Bool.not_eq_true] at hactive
  cases NextBy.of_exec h
  case reset hi => exact absurd hi hreset
  case command v hv => exact (s.doCommand_sameConfig v).answer _
  case regWrite r v hr hc => exact (State.regWrite_sameConfig hq r v).answer _
  all_goals constructor <;> simp

/-! The step and the script (R51, 20_memory.md R81). -/

theorem State.fetch_of_nil {s : State} (h : s.script = []) : s.fetch = (.tick false false, s) := by
  rw [State.fetch, h]

theorem State.fetch_of_cons {s : State} {r : Record} {rest : List Record} (h : s.script = r :: rest) :
    s.fetch = (decode r, { s with script := rest }) := by
  rw [State.fetch, h]

/-- Settles O4: a step is `exec` of the operation that the two cases of `State.fetch` take. -/
theorem stepRunsDecodedOperation : Obligations.StepRunsDecodedOperation := fun s =>
  ⟨fun h => by rw [step, State.fetch_of_nil h], fun r rest h => by rw [step, State.fetch_of_cons h]⟩

/-! The two reads of `NOW` (R44). -/

/-- Ticks do not write `NOW_HI_SHADOW`. -/
theorem runTicks_nowHiShadow {l : List (Bool × Bool)} {s t : State} (h : runTicks l s = some t) :
    t.nowHiShadow = s.nowHiShadow := by
  induction l generalizing s with
  | nil => rw [← Option.some.inj h]
  | cons x l ih =>
    obtain ⟨d, a⟩ := x
    rw [runTicks] at h
    split at h
    next u hu =>
      obtain ⟨-, rfl⟩ := execTick_next hu
      exact (ih h).trans (s.tickPhases_nowHiShadow d a)
    all_goals cases h

/-- A number below 2^64 is its upper and lower 32 bits put together. -/
theorem nowHi_nowLo_eq {n : Nat} (h : n < 2 ^ 64) :
    (BitVec.ofNat 32 (n / 2 ^ 32)).toNat * 2 ^ 32 + (BitVec.ofNat 32 n).toNat = n := by
  rw [BitVec.toNat_ofNat, BitVec.toNat_ofNat]
  omega

/-- `REG.RD NOW_LO` returns the low half and stores the high half (R44). -/
theorem exec_regRd_nowLo (s : State) :
    exec (.regRd 0x44) s = .next (State.answer (.read s.nowLo true) { s with nowHiShadow := s.nowHi }) := rfl

/-- `REG.RD NOW_HI` returns the half that was stored (R44). -/
theorem exec_regRd_nowHi (s : State) : exec (.regRd 0x48) s = .next (s.answer (.read s.nowHiShadow true)) := rfl

/-- Settles O24: the first read stores the high half, which no tick writes and the second read returns. -/
theorem nowReadsConsistent : Obligations.NowReadsConsistent := by
  intro s
  refine ⟨_, exec_regRd_nowLo s, rfl, fun l t h => ?_, nowHi_nowLo_eq⟩
  have hshadow : t.nowHiShadow = BitVec.ofNat 32 (s.now / 2 ^ 32) := runTicks_nowHiShadow h
  rw [← hshadow]
  exact exec_regRd_nowHi t

/-! The status words (R40, R41): an OR of fields, each shifted to its place. -/

/-- A field of a 32-bit status word: the bits of `x` from bit `p` upward. -/
def statusField {w : Nat} (x : BitVec w) (p : Nat) : Word := x.zeroExtend 32 <<< p

theorem statusField_zero {w : Nat} (x : BitVec w) : statusField x 0 = x.zeroExtend 32 := by
  simp [statusField]

/-- The bits of a field stand from `p` upward, and every other bit is 0. -/
theorem getLsbD_statusField {w : Nat} (x : BitVec w) (p i : Nat) :
    (statusField x p).getLsbD i = (decide (i < 32) && decide (p ≤ i) && x.getLsbD (i - p)) := by
  have hsub (h : i < 32) : i - p < 32 := by omega
  rw [statusField, BitVec.getLsbD_shiftLeft, BitVec.getLsbD_setWidth]
  by_cases hi : i < 32 <;> by_cases hp : p ≤ i <;> simp [hi, hp, hsub]

/-- A field reads back from its own place. -/
theorem extractLsb'_statusField_same {w p : Nat} (x : BitVec w) (h : p + w ≤ 32) :
    (statusField x p).extractLsb' p w = x := by
  apply BitVec.eq_of_getLsbD_eq
  intro i hi
  have hbit : p + i < 32 := by omega
  simp only [BitVec.getLsbD_extractLsb', getLsbD_statusField, hi, hbit, Nat.le_add_right, Nat.add_sub_cancel_left,
    decide_true, Bool.true_and]

/-- A field is 0 at every place that it does not reach. -/
theorem extractLsb'_statusField_apart {w p : Nat} (x : BitVec w) {q n : Nat} (h : p + w ≤ q ∨ q + n ≤ p) :
    (statusField x p).extractLsb' q n = 0 := by
  apply BitVec.eq_of_getLsbD_eq
  intro i hi
  rw [BitVec.getLsbD_extractLsb', getLsbD_statusField]
  rcases h with h | h
  · have habove : w ≤ q + i - p := by omega
    simp [BitVec.getLsbD_of_ge x _ habove]
  · have hbelow : ¬ p ≤ q + i := by omega
    simp [hbelow]

/-- `TX_STATUS` is the OR of its five fields (R40). -/
theorem State.txStatus_eq (s : State) :
    s.txStatus = statusField s.txState.code 0 ||| statusField (BitVec.ofBool s.txSeq) 3
      ||| statusField s.txResult.code 4 ||| statusField s.txRetry 6 ||| statusField s.txLastRetries 15 := by
  rw [statusField_zero]; rfl

/-- `RX_STATUS` is the OR of its five fields (R41). -/
theorem State.rxStatus_eq (s : State) :
    s.rxStatus = statusField s.rxState.code 0 ||| statusField (BitVec.ofBool s.rxEn) 1
      ||| statusField (BitVec.ofBool s.rxSession) 2 ||| statusField (BitVec.ofBool s.rxLastSeq) 3
      ||| statusField s.rxResult.code 4 := by
  rw [statusField_zero]; rfl

/-- A one-bit field is read by its bit. -/
theorem getLsbD_of_extractLsb' {x : Word} {p : Nat} {b : Bool} (h : x.extractLsb' p 1 = BitVec.ofBool b) :
    x.getLsbD p = b := by
  have hbit := congrArg (·.getLsbD 0) h
  simpa [BitVec.getLsbD_extractLsb'] using hbit

theorem State.txStatus_fields (s : State) :
    s.txStatus.extractLsb' 0 3 = s.txState.code ∧ s.txStatus.extractLsb' 3 1 = BitVec.ofBool s.txSeq ∧
    s.txStatus.extractLsb' 4 2 = s.txResult.code ∧ s.txStatus.extractLsb' 6 9 = s.txRetry ∧
    s.txStatus.extractLsb' 15 9 = s.txLastRetries ∧ s.txStatus.extractLsb' 24 8 = 0 := by
  simp [State.txStatus_eq, BitVec.extractLsb'_or, extractLsb'_statusField_same, extractLsb'_statusField_apart]

theorem State.rxStatus_fields (s : State) :
    s.rxStatus.extractLsb' 0 1 = s.rxState.code ∧ s.rxStatus.extractLsb' 1 1 = BitVec.ofBool s.rxEn ∧
    s.rxStatus.extractLsb' 2 1 = BitVec.ofBool s.rxSession ∧ s.rxStatus.extractLsb' 3 1 = BitVec.ofBool s.rxLastSeq ∧
    s.rxStatus.extractLsb' 4 3 = s.rxResult.code ∧ s.rxStatus.extractLsb' 7 25 = 0 := by
  simp [State.rxStatus_eq, BitVec.extractLsb'_or, extractLsb'_statusField_same, extractLsb'_statusField_apart]

/-- Settles O23: each field of the two words reads back from its place, where the other four are 0. -/
theorem statusReadouts : Obligations.StatusReadouts := by
  intro s
  obtain ⟨hstate, hseq, hresult, hretry, hlast, hzero⟩ := s.txStatus_fields
  obtain ⟨hrstate, hen, hsession, hlastSeq, hrresult, hrzero⟩ := s.rxStatus_fields
  have hrx : s.rxState.code = BitVec.ofBool (decide (s.rxState = .receiving)) := by cases s.rxState <;> rfl
  refine ⟨⟨?_, getLsbD_of_extractLsb' hseq, ?_, hretry, hlast, hzero⟩,
    getLsbD_of_extractLsb' (hrstate.trans hrx), getLsbD_of_extractLsb' hen, getLsbD_of_extractLsb' hsession,
    getLsbD_of_extractLsb' hlastSeq, ?_, hrzero⟩
  · rw [hstate]; cases s.txState <;> rfl
  · rw [hresult]; cases s.txResult <;> rfl
  · rw [hrresult]; cases s.rxResult <;> rfl

/-! `TX_SEQ` and `TX_FRAME` (R25, R47). -/

/-- Of the commands only `SOFT_RESET` writes `TX_SEQ`. -/
theorem State.doCommand_txSeq {v : Word} {s : State} (h : (s.doCommand v).txSeq ≠ s.txSeq) :
    v = 4 ∧ (s.doCommand v).txSeq = false := by
  rcases s.doCommand_effect v with ⟨_, _, _, e⟩ | ⟨hv, e⟩ | ⟨-, -, e⟩
  · exact absurd (congrArg State.txSeq e) h
  · exact ⟨hv, congrArg State.txSeq e⟩
  · exact absurd (congrArg State.txSeq e) h

/-- Of the commands only `SOFT_RESET`, and `SEND` where it is accepted, write `TX_FRAME`. -/
theorem State.doCommand_txFrame {v : Word} {s : State} (h : (s.doCommand v).txFrame ≠ s.txFrame) :
    (v = 4 ∧ (s.doCommand v).txFrame = []) ∨
    (v = 1 ∧ (s.txState = .idle ∨ s.txState = .failed) ∧ (s.doCommand v).txState = .sending ∧
      (s.doCommand v).txFrame = s.newFrame) := by
  rcases s.doCommand_effect v with ⟨_, _, _, e⟩ | ⟨hv, e⟩ | ⟨hv, hst, e⟩
  · exact absurd (congrArg State.txFrame e) h
  · exact .inl ⟨hv, congrArg State.txFrame e⟩
  · exact .inr ⟨hv, hst, congrArg State.txState e, congrArg State.txFrame e⟩

/-- The frame of an accepted `SEND`, with its header byte and message written out (42_arq_sender.md R181). -/
theorem State.newFrame_eq (s : State) :
    s.newFrame = frEncode ((if s.txSeq then 1#8 else 0#8)
      :: (List.range s.txLen.toNat).map fun j => s.mem.read (0x400 + j)) := by
  have hheader : headerByte s.txSeq = if s.txSeq then 1#8 else 0#8 := by cases s.txSeq <;> rfl
  rw [State.newFrame, hheader, State.message_eq]

/-- Phase P4 writes `TX_SEQ` only in `TX.ACKED` (42_arq_sender.md R186). -/
theorem State.phaseTx_txSeq {s : State} (h : s.phaseTx.txSeq ≠ s.txSeq) :
    s.txOp = .acked ∧ s.txState = .waitingAck ∧ s.phaseTx.txState = .idle ∧ s.phaseTx.txResult = .success ∧
      s.phaseTx.hasFlag .txDone = true := by
  rcases s.txOp_cases with ⟨-, ho⟩ | ⟨-, ho⟩ | ⟨-, -, ho⟩ | ⟨-, -, -, ho⟩ | ⟨-, -, -, ho⟩ | ⟨hst, -, ho⟩ |
    ⟨-, -, -, ho⟩ | ⟨-, -, -, -, ho⟩ | ⟨-, -, -, -, ho⟩ <;> rw [State.phaseTx_eq, ho] at h ⊢
  case inr.inr.inr.inr.inr.inl => exact ⟨rfl, hst, rfl, rfl, by simp [State.doAcked]⟩
  all_goals exact absurd (by simp [State.doEmit, State.doEmitLast, State.doRetx, State.doFail]) h

/-- Settles O40: `TX_SEQ` is written by `SOFT_RESET` and `RESET`, and by phase P4 in `TX.ACKED`, alone or in a tick. -/
theorem sequenceToggles : Obligations.SequenceToggles := by
  intro i s t h hne
  cases NextBy.of_exec h
  case tick d a hi =>
    obtain ⟨-, -, hst, -, -, -, -, -, hseq, -⟩ := s.beforeTx_spec d a
    rw [State.tickPhases_eq] at hne ⊢
    obtain ⟨-, hwait, hafter⟩ := State.phaseTx_txSeq (by rwa [hseq])
    exact .inr ⟨.inr ⟨d, a, hi⟩, hst ▸ hwait, hafter⟩
  case reset hi => exact .inl ⟨.inl hi, rfl⟩
  case command v hv =>
    obtain ⟨rfl, hseq⟩ := State.doCommand_txSeq hne
    exact .inl ⟨.inr hv, hseq⟩
  case regWrite r v hr hc => exact absurd (by simp [hc]) hne
  case phaseTx hi =>
    obtain ⟨hop, hwait, hafter⟩ := State.phaseTx_txSeq hne
    rw [State.txOp_quiet] at hop
    exact .inr ⟨.inl (by rw [hi, hop]; rfl), hwait, hafter⟩
  all_goals exact absurd (by simp) hne

/-- Settles O41: `TX_FRAME` is written by `RESET`, by `SOFT_RESET` and by an accepted `SEND`; no phase of a tick writes
it. -/
theorem retainedFrame : Obligations.RetainedFrame := by
  intro i s t h hne
  cases NextBy.of_exec h
  case reset hi => exact .inl ⟨.inl hi, rfl⟩
  case command v hv =>
    rw [← s.newFrame_eq]
    rcases State.doCommand_txFrame hne with ⟨rfl, hempty⟩ | ⟨rfl, hsend⟩
    · exact .inl ⟨.inr hv, hempty⟩
    · exact .inr ⟨hv, hsend⟩
  case regWrite r v hr hc => exact absurd (by simp [hc]) hne
  all_goals exact absurd (by simp) hne

/-! `RXBUF` and `RX_LEN` (R42, R46, 20_memory.md R78). -/

/-- A flag outside the mask that an operation may set is as before. -/
theorem State.hasFlag_of_mask_disjoint {f : Flag} {s t : State} {m k : BitVec 8} (h : t.flags = s.flags ||| m)
    (hm : m &&& k = 0#8) (hk : k.getLsbD f.bit = true) : t.hasFlag f = s.hasFlag f := by
  have hbit := congrArg (·.getLsbD f.bit) hm
  simp only [BitVec.getLsbD_and, hk, Bool.and_true, BitVec.getLsbD_zero] at hbit
  rw [State.hasFlag_setMask h, hbit, Bool.or_false]

/-- A delivery happened between two states: `RX_MSG` was clear and is pending (43_arq_receiver.md R211). -/
def deliveredBetween (s t : State) : Prop := s.hasFlag .rxMsg = false ∧ t.hasFlag .rxMsg = true

/-- Both buffers and `RX_LEN` are as before. -/
def sameBuffers (s t : State) : Prop := t.mem = s.mem ∧ t.rxLen = s.rxLen

/-- An outcome of a decode attempt leaves the buffers and `RX_LEN`, or is a delivery (30_encoding.md R114). -/
theorem State.doOutcome_same_or_delivers (v : Verdict) (s : State) :
    sameBuffers s (s.doOutcome v) ∨ deliveredBetween s (s.doOutcome v) := by
  match v with
  | .err _ | .ok [] => exact .inl ⟨rfl, rfl⟩
  | .ok (h :: m) =>
    cases hdup : s.isDuplicate (h.getLsbD 0) with
    | true => exact .inl (by simp only [State.doOutcome, hdup]; exact ⟨rfl, rfl⟩)
    | false =>
      cases hmsg : s.hasFlag .rxMsg with
      | true => exact .inl (by simp only [State.doOutcome, hdup, hmsg]; exact ⟨rfl, rfl⟩)
      | false =>
        have hdeliver : s.doOutcome (.ok (h :: m)) = s.doDeliver (h.getLsbD 0) m := by
          simp only [State.doOutcome, hdup, hmsg, Bool.false_eq_true, if_false]
        refine .inr ⟨hmsg, ?_⟩
        rw [hdeliver]
        exact (State.hasFlag_setFlag .rxMsg .rxMsg _).trans (by simp)

/-- What a decode attempt records of ambiguity and overflow bears neither on the buffers nor on `RX_MSG`. -/
theorem State.recordOvf_recordAmbig_spec (n : Nat) (o : Bool) (s : State) :
    sameBuffers s ((s.recordAmbig n).recordOvf o) ∧
      ((s.recordAmbig n).recordOvf o).hasFlag .rxMsg = s.hasFlag .rxMsg := by
  obtain ⟨f1, e1, h1⟩ := s.recordAmbig_writes n
  obtain ⟨f2, e2, h2⟩ := (s.recordAmbig n).recordOvf_writes o
  have hambig : (s.recordAmbig n).hasFlag .rxMsg = s.hasFlag .rxMsg :=
    State.hasFlag_of_mask_disjoint (k := 0x04#8) (by rw [e1, h1]) (by split <;> rfl) rfl
  have hovf : ((s.recordAmbig n).recordOvf o).hasFlag .rxMsg = (s.recordAmbig n).hasFlag .rxMsg :=
    State.hasFlag_of_mask_disjoint (k := 0x04#8) (by rw [e2, h2]) (by split <;> rfl) rfl
  exact ⟨by rw [e2, e1]; exact ⟨rfl, rfl⟩, hovf.trans hambig⟩

/-- Phase P3 leaves the buffers and `RX_LEN`, or delivers (43_arq_receiver.md R205). -/
theorem State.phaseClose_same_or_delivers (s : State) :
    sameBuffers s s.phaseClose ∨ deliveredBetween s s.phaseClose := by
  rw [State.phaseClose]
  split
  · split
    · obtain ⟨⟨hmem, hlen⟩, hmsg⟩ := s.recordOvf_recordAmbig_spec s.recovered.namb s.recovered.ovf
      rcases State.doOutcome_same_or_delivers s.windowVerdict
        ((s.recordAmbig s.recovered.namb).recordOvf s.recovered.ovf) with ⟨hmem', hlen'⟩ | ⟨hbefore, hafter⟩
      · exact .inl ⟨hmem'.trans hmem, hlen'.trans hlen⟩
      · exact .inr ⟨hmsg ▸ hbefore, hafter⟩
    · exact .inl ⟨rfl, rfl⟩
  · exact .inl ⟨rfl, rfl⟩

/-- A tick leaves the buffers and `RX_LEN`, or delivers: only phase P3 writes them, and no phase clears a flag. -/
theorem State.tickPhases_same_or_delivers (d a : Bool) (s : State) :
    sameBuffers s (s.tickPhases d a) ∨ deliveredBetween s (s.tickPhases d a) := by
  obtain ⟨m1, e1, h1⟩ := s.quiet.phaseCapture_flags d
  obtain ⟨m4, e4, -⟩ := (s.beforeTx d a).phaseTx_flags
  have hmsg : ((s.quiet.phaseCapture d).phaseAck a).hasFlag .rxMsg = s.hasFlag .rxMsg :=
    State.hasFlag_of_mask_disjoint (by rw [State.phaseAck_flags, e1]; rfl) h1 rfl
  rcases ((s.quiet.phaseCapture d).phaseAck a).phaseClose_same_or_delivers with ⟨hmem, hlen⟩ | ⟨hbefore, hafter⟩
  · exact .inl ⟨by simpa [State.tickPhases] using hmem, by simpa [State.tickPhases] using hlen⟩
  · refine .inr ⟨hmsg ▸ hbefore, ?_⟩
    rw [State.tickPhases_eq, State.hasFlag_setMask e4, State.beforeTx, hafter, Bool.true_or]

/-- Of the outcomes performed alone, only `RX.DELIVER` delivers: `RX.DUP` fires for a duplicate, `RX.BUSY` while `RX_MSG`
is pending (43_arq_receiver.md R209, R210). -/
theorem verdict_same_or_delivers {i : Instr} {v : Verdict} {s : State} (hv : verdictOf i = some v)
    (hdup : ∀ q, i = .rxDup q → s.isDuplicate q = true)
    (hbusy : ∀ q, i = .rxBusy q → s.isDuplicate q = false ∧ s.hasFlag .rxMsg = true) :
    sameBuffers s (s.quiet.doOutcome v) ∨
      (∃ q m, i = .rxDeliver q m) ∧ deliveredBetween s (s.quiet.doOutcome v) := by
  rcases s.quiet.doOutcome_same_or_delivers v with hsame | hdeliv
  · exact .inl hsame
  cases i
  case rxDeliver q m => exact .inr ⟨⟨q, m, rfl⟩, hdeliv⟩
  case rxDropErr | rxDropHdr =>
    injection hv with hv
    subst hv
    exact .inl ⟨rfl, rfl⟩
  case rxDup q =>
    injection hv with hv
    subst hv
    have hd : s.quiet.isDuplicate q = true := hdup q rfl
    simp only [State.doOutcome, headerByte_getLsbD, hd]
    exact .inl ⟨rfl, rfl⟩
  case rxBusy q =>
    have hmsg : s.hasFlag .rxMsg = false := hdeliv.1
    rw [(hbusy q rfl).2] at hmsg
    cases hmsg
  all_goals cases hv

/-- Of the commands only `SOFT_RESET` writes `RX_LEN`. -/
theorem State.doCommand_rxLen {v : Word} {s : State} (h : (s.doCommand v).rxLen ≠ s.rxLen) : v = 4 := by
  rcases s.doCommand_effect v with ⟨_, _, _, e⟩ | ⟨hv, -⟩ | ⟨-, -, e⟩
  · exact absurd (congrArg State.rxLen e) h
  · exact hv
  · exact absurd (congrArg State.rxLen e) h

/-- Where the parameters meet R6, `TXBUF` ends below `RXBUF` (20_memory.md R71). -/
theorem read_rxbuf_write_txbuf {b : Build} (hb : b.wf) {m : Memory} {a x : Nat} {v : Byte} (ha : a < b.maxPayload) :
    (m.write (txbufAddr a) v).read (0x800 + x) = m.read (0x800 + x) := by
  have hmax : b.maxPayload ≤ 1024 := hb.2.1
  exact Memory.read_write_other (by rw [txbufAddr]; omega)

/-- Settles O48: each operation but a delivery and a reset leaves `RX_LEN` and what `RXBUF` reads as they were. -/
theorem rxbufOwnership : Obligations.RxbufOwnership := by
  intro i s t hb h
  refine ⟨fun hchange => ?_, fun hsoft => ?_⟩
  case refine_2 =>
    rw [exec_of_commandOf hsoft] at h
    injection h with h
    rw [← h]
    exact s.doCommand_mem 4
  have hsame (hread : ∀ a, t.mem.read (0x800 + a) = s.mem.read (0x800 + a)) (hlen : t.rxLen = s.rxLen) : False := by
    rcases hchange with ⟨a, ha⟩ | hl
    · exact ha (hread a)
    · exact hl hlen
  cases NextBy.of_exec h
  case tick d a hi =>
    rcases s.tickPhases_same_or_delivers d a with ⟨hmem, hlen⟩ | hdeliv
    · exact (hsame (fun _ => by rw [hmem]) hlen).elim
    · exact .inr (.inr ⟨.inr (.inl ⟨d, a, hi⟩), hdeliv⟩)
  case reset hi => exact .inl hi
  case command v hv =>
    rcases hchange with ⟨a, ha⟩ | hl
    · exact absurd (by simp) ha
    · exact .inr (.inl (State.doCommand_rxLen hl ▸ hv))
  case regWrite r v hr hc => exact (hsame (fun _ => by simp [hc]) (by simp [hc])).elim
  case writeTxbuf a b ha => exact (hsame (fun _ => read_rxbuf_write_txbuf hb ha) rfl).elim
  case phaseClose hi =>
    rcases s.quiet.phaseClose_same_or_delivers with ⟨hmem, hlen⟩ | hdeliv
    · exact (hsame (fun _ => by rw [hmem]; rfl) hlen).elim
    · exact .inr (.inr ⟨.inl hi, hdeliv⟩)
  case outcome v hv hdup hbusy =>
    rcases verdict_same_or_delivers hv hdup hbusy with ⟨hmem, hlen⟩ | ⟨hi, hdeliv⟩
    · exact (hsame (fun _ => by rw [hmem]) hlen).elim
    · exact .inr (.inr ⟨.inr (.inr hi), hdeliv⟩)
  all_goals exact (hsame (fun _ => by simp) (by simp)).elim

/-! The stamps of the open window (R49). -/

/-- No operation writes the rest of the script, not even `RESET` (log 1). -/
theorem exec_script {i : Instr} {s t : State} (h : exec i s = .next t) : t.script = s.script := by
  cases NextBy.of_exec h
  case regWrite r v hr hc => simp [hc]
  case reset hi => rfl
  all_goals simp

/-- In an open window the entries of `RX_TS` rise strictly and lie, with `RX_TLAST`, before time `n`. -/
def State.stampsBefore (n : Nat) (s : State) : Prop :=
  s.rxState = .receiving → s.rxTs.Pairwise (· < ·) ∧ (∀ t ∈ s.rxTs, t ≤ s.rxTlast) ∧ s.rxTlast < n

theorem State.stampsRise_iff_stampsBefore (s : State) : s.stampsRise ↔ s.stampsBefore s.now := Iff.rfl

/-- The second state has no window open, or the window of the first with its stamps. -/
def closedOrSameWindow (s t : State) : Prop :=
  t.rxState = .idle ∨ (t.rxState = s.rxState ∧ t.rxTs = s.rxTs ∧ t.rxTlast = s.rxTlast)

theorem State.stampsBefore.of_window {n : Nat} {s t : State} (h : s.stampsBefore n) (hw : closedOrSameWindow s t) :
    t.stampsBefore n := by
  intro hopen
  rcases hw with hidle | ⟨hstate, hts, hlast⟩
  · rw [hidle] at hopen; cases hopen
  · rw [hts, hlast]; exact h (hstate ▸ hopen)

theorem State.stampsRise.of_window {s t : State} (h : s.stampsRise) (hnow : t.now = s.now)
    (hw : closedOrSameWindow s t) : t.stampsRise := by
  rw [State.stampsRise_iff_stampsBefore] at h ⊢
  rw [hnow]
  exact h.of_window hw

/-- Phase P3 keeps the window or closes it. -/
theorem State.phaseClose_window (s : State) : closedOrSameWindow s s.phaseClose := by
  rw [State.phaseClose]
  split
  · split
    · exact .inl rfl
    · exact .inr ⟨rfl, rfl, rfl⟩
  · exact .inr ⟨rfl, rfl, rfl⟩

/-- A command keeps the window, or it is `SOFT_RESET`, which closes it. -/
theorem State.doCommand_window (v : Word) (s : State) : closedOrSameWindow s (s.doCommand v) := by
  rcases s.doCommand_effect v with ⟨_, _, _, e⟩ | ⟨-, e⟩ | ⟨-, -, e⟩ <;> rw [e]
  · exact .inr ⟨rfl, rfl, rfl⟩
  · exact .inl rfl
  · exact .inr ⟨rfl, rfl, rfl⟩

/-- Phase P1 stamps with the present, so every stamp lies before the next tick (43_arq_receiver.md R202, R203). -/
theorem State.stampsRise.phaseCapture {s : State} (h : s.stampsRise) (d : Bool) :
    (s.phaseCapture d).stampsBefore (s.now + 1) := by
  have hlater : s.stampsBefore (s.now + 1) := by
    intro hopen
    obtain ⟨hrise, hlast, hnow⟩ := h hopen
    exact ⟨hrise, hlast, Nat.lt_succ_of_lt hnow⟩
  cases d with
  | false => exact hlater
  | true =>
    rcases s.phaseCapture_pulse with ⟨hopen, -, e⟩ | ⟨hopen, -, e⟩ | ⟨-, -, e⟩ | ⟨-, -, e⟩ <;> rw [e]
    · obtain ⟨hrise, hlast, hnow⟩ := h hopen
      have hpast (t : Nat) (ht : t ∈ s.rxTs) : t < s.now := (hlast t ht).trans_lt hnow
      refine fun _ => ⟨List.pairwise_append.mpr ⟨hrise, List.pairwise_singleton _ _, ?_⟩, ?_, Nat.lt_succ_self _⟩
      · intro t ht u hu
        rw [List.mem_singleton.mp hu]
        exact hpast t ht
      · intro t ht
        rcases List.mem_append.mp ht with ht | ht
        · exact (hpast t ht).le
        · exact (List.mem_singleton.mp ht).le
    · obtain ⟨hrise, hlast, hnow⟩ := h hopen
      exact fun _ => ⟨hrise, fun t ht => ((hlast t ht).trans_lt hnow).le, Nat.lt_succ_self _⟩
    · exact fun _ => ⟨List.pairwise_singleton _ _, fun t ht => (List.mem_singleton.mp ht).le, Nat.lt_succ_self _⟩
    · exact hlater

/-- A tick stamps in phase P1 only, and ends with `NOW` one later. -/
theorem State.stampsRise.tick {s : State} (h : s.stampsRise) (d a : Bool) :
    State.stampsRise { s.tickPhases d a with now := s.now + 1 } := by
  have hquiet : s.quiet.stampsRise := h
  have hack : ((s.quiet.phaseCapture d).phaseAck a).stampsBefore (s.now + 1) :=
    (hquiet.phaseCapture d).of_window (.inr (by simp))
  have htx : (s.tickPhases d a).stampsBefore (s.now + 1) :=
    (hack.of_window (State.phaseClose_window _)).of_window (.inr (by simp [State.tickPhases]))
  exact htx

/-- An operation of a run keeps the stamps rising. Of the parts of a tick only phase P1 alone would not, which stamps the
present and leaves `NOW`; it is no operation of a run (20_memory.md R81). -/
theorem State.stampsRise.exec {i : Instr} {s t : State} (h : s.stampsRise) (hrun : isRunOperation i = true)
    (he : exec i s = .next t) : t.stampsRise := by
  cases NextBy.of_exec he
  case tick d a hi => exact h.tick d a
  case reset hi => exact State.resetOf_stampsRise s.build
  case command v hv => exact h.of_window (s.doCommand_now v) (s.doCommand_window v)
  case regWrite r v hr hc => exact h.of_window (by simp [hc]) (.inr (by simp [hc]))
  case phaseCapture hi => rcases hi with rfl | rfl <;> cases hrun
  case phaseClose hi => exact h.of_window (s.quiet.phaseClose_now) (s.quiet.phaseClose_window)
  all_goals exact h.of_window (by simp) (.inr (by simp))

/-- The next operation of a run's script is one of a run, and so is the rest. -/
theorem State.runScript.fetch {s : State} (h : s.runScript) : isRunOperation s.fetch.1 = true ∧ s.fetch.2.runScript := by
  cases hs : s.script with
  | nil => rw [State.fetch_of_nil hs]; exact ⟨rfl, h⟩
  | cons r rest =>
    rw [State.fetch_of_cons hs]
    rw [State.runScript, hs] at h
    exact ⟨h r List.mem_cons_self, fun q hq => h q (List.mem_cons_of_mem r hq)⟩

/-- Taking an operation from the script keeps the stamps. -/
theorem State.stampsRise.fetch {s : State} (h : s.stampsRise) : s.fetch.2.stampsRise := by
  cases hs : s.script with
  | nil => rwa [State.fetch_of_nil hs]
  | cons r rest => rw [State.fetch_of_cons hs]; exact h

/-- Settles O57: the step's operation is one of a run, which keeps the rest of the script and the rising stamps. -/
theorem stampsRise : Obligations.StampsRise := by
  intro s t hrun hrise h
  obtain ⟨hop, hrest⟩ := hrun.fetch
  refine ⟨?_, hrise.fetch.exec hop h⟩
  rw [State.runScript, exec_script h]
  exact hrest

/-! `FLAGS` (R24, 60_exceptions.md R267). -/

/-- A pending flag stays pending where flags are only set. -/
theorem State.hasFlag_of_flags_or {f : Flag} {s t : State} {m : BitVec 8} (h : t.flags = s.flags ||| m)
    (hf : s.hasFlag f = true) : t.hasFlag f = true := by
  rw [State.hasFlag_setMask h, hf, Bool.true_or]

/-- An event clears no flag (60_exceptions.md R271). -/
theorem State.hasFlag_raise {f : Flag} {s : State} (ev : Event) (hf : s.hasFlag f = true) :
    (s.raise ev).hasFlag f = true := by
  cases ev
  case busError => exact hf
  all_goals exact State.hasFlag_of_flags_or (s := s) rfl hf

/-- Of the commands only `SOFT_RESET` clears flags, and an accepted `SEND` the two of the sender. -/
theorem State.doCommand_clears {v : Word} {f : Flag} {s : State} (hf : s.hasFlag f = true)
    (hcleared : (s.doCommand v).hasFlag f = false) :
    v = 4 ∨ (v = 1 ∧ (s.doCommand v).txState = .sending ∧ (f = .txDone ∨ f = .txFail)) := by
  rcases s.doCommand_effect v with ⟨m, _, _, e⟩ | ⟨hv, -⟩ | ⟨hv, -, e⟩
  · rw [State.hasFlag_of_flags_or (congrArg State.flags e) hf] at hcleared
    cases hcleared
  · exact .inl hv
  · have hmask : (Flag.txDone.mask ||| Flag.txFail.mask).getLsbD f.bit = true := by
      rw [State.hasFlag_clearMask (s := s) (congrArg State.flags e), hf] at hcleared
      simpa only [Bool.true_and, Bool.not_eq_false'] using hcleared
    refine .inr ⟨hv, congrArg State.txState e, ?_⟩
    revert hmask
    cases f <;> decide

/-- A well-formed row that writes `FLAGS` is `REG.WR_FLAGS`. -/
theorem eq_regWrFlags_of_regWriteOf {i : Instr} {v : Word} (hwf : i.wf = true) (h : regWriteOf i = some (.flags, v)) :
    i = .regWrFlags v := by
  cases i
  case regWrFlags w =>
    injection h with h
    rw [(Prod.mk.inj h).2]
  case regWr off w =>
    rw [regWriteOf] at h
    rw [Instr.wf] at hwf
    split at h
    next r hr =>
      rw [hr] at hwf
      split at h
      · cases h
      · obtain ⟨rfl, -⟩ := Prod.mk.inj (Option.some.inj h)
        cases hwf
    · cases h
  all_goals cases h

/-- A register write clears a flag only in `FLAGS`, by a 1 at the flag's bit (44_host_interface.md R236). -/
theorem State.regWrite_clears {i : Instr} {r : Reg} {v : Word} {f : Flag} {s : State} (hr : regWriteOf i = some (r, v))
    (hf : s.hasFlag f = true) (hcleared : (s.regWrite r v).hasFlag f = false) : r = .flags ∧ v.getLsbD f.bit = true := by
  have hbit : f.bit < 8 := by cases f <;> decide
  rcases State.regWrite_cases hr s with ⟨_, _, _, _, _, _, _, _, _, _, e⟩ | ⟨hflags, e⟩ | e <;> rw [e] at hcleared
  · rw [show s.hasFlag f = false from hcleared] at hf
    cases hf
  · rw [State.hasFlag_clearMask (s := s) rfl, hf] at hcleared
    exact ⟨hflags, by simpa [hbit] using hcleared⟩
  · rw [State.hasFlag_raise _ hf] at hcleared
    cases hcleared

/-- Settles O58: the phases and the events only set flags, so a flag is cleared by a reset, by a write to `FLAGS` or by
an accepted `SEND`. -/
theorem flagsAreSticky : Obligations.FlagsAreSticky := by
  intro i s t f hwf h hf hcleared
  have hset {m : BitVec 8} (hm : t.flags = s.flags ||| m) : False := by
    rw [State.hasFlag_of_flags_or hm hf] at hcleared
    cases hcleared
  cases NextBy.of_exec h
  case tick d a hi =>
    obtain ⟨m, e, -⟩ := s.tickPhases_flags d a
    exact (hset e).elim
  case reset hi => exact .inl hi
  case command v hv =>
    rcases State.doCommand_clears hf hcleared with rfl | ⟨rfl, hsend⟩
    · exact .inr (.inl hv)
    · exact .inr (.inr (.inl ⟨hv, hsend⟩))
  case regWrite r v hr hc =>
    obtain ⟨rfl, hbit⟩ := State.regWrite_clears hr hf hcleared
    exact .inr (.inr (.inr ⟨v, eq_regWrFlags_of_regWriteOf hwf hr, hbit⟩))
  case phaseTx hi =>
    obtain ⟨m, e, -⟩ := s.quiet.phaseTx_flags
    exact (hset e).elim
  case phaseCapture hi =>
    obtain ⟨m, e, -⟩ := s.quiet.phaseCapture_flags true
    exact (hset e).elim
  case phaseClose hi =>
    obtain ⟨m, e, -⟩ := s.quiet.phaseClose_flags
    exact (hset e).elim
  case outcome v hv hdup hbusy =>
    obtain ⟨m, e, -⟩ := s.quiet.doOutcome_flags v
    exact (hset e).elim
  all_goals exact (hset (m := 0#8) (by simp)).elim

end Sys2Proof.Machine
end

section
/-! PROOFS. The statements about a tick and the host's accesses (20_memory.md). First the two roles: each phase of a tick
leaves the other role's part of the state as it was, and what it does to its own part depends on that part alone (R80).
From this follow that the roles do not interfere and that phases P3 and P4 commute. Then the rows that a state does not
select, and the bus accesses. -/

namespace Sys2Proof.Machine

/-! The flags that each phase leaves (R80). -/

/-- Phase P1 leaves every flag but `RX_OVF`. -/
theorem State.hasFlag_phaseCapture {f : Flag} (hf : f ≠ .rxOvf) (d : Bool) (s : State) :
    (s.phaseCapture d).hasFlag f = s.hasFlag f := by
  obtain ⟨m, e, hm⟩ := s.phaseCapture_flags d
  refine State.hasFlag_of_mask_disjoint e hm ?_
  revert hf
  cases f <;> decide

/-- Phase P3 leaves the sender's flags and `CMD_ERR`. -/
theorem State.hasFlag_phaseClose {f : Flag} (hf : f ∈ [Flag.txDone, .txFail, .cmdErr]) (s : State) :
    s.phaseClose.hasFlag f = s.hasFlag f := by
  obtain ⟨m, e, hm⟩ := s.phaseClose_flags
  refine State.hasFlag_of_mask_disjoint e hm ?_
  revert hf
  cases f <;> decide

/-- Phase P4 leaves every flag but its own two. -/
theorem State.hasFlag_phaseTx {f : Flag} (hf : f ∉ [Flag.txDone, .txFail]) (s : State) :
    s.phaseTx.hasFlag f = s.hasFlag f := by
  obtain ⟨m, e, hm⟩ := s.phaseTx_flags
  refine State.hasFlag_of_mask_disjoint e hm ?_
  revert hf
  cases f <;> decide

/-! The memories of two states that the receiver does not tell apart. -/

/-- A relation between memories under which `RXBUF` reads alike, and which the write of a message into `RXBUF` keeps
(43_arq_receiver.md R211). -/
structure rxbufAlike (R : Memory → Memory → Prop) : Prop where
  read {m n : Memory} : R m n → ∀ a, m.read (rxbufAddr a) = n.read (rxbufAddr a)
  write {m n : Memory} : R m n → ∀ p, R (m.writeBytes (rxbufAddr 0) p) (n.writeBytes (rxbufAddr 0) p)

theorem rxbufAlike_eq : rxbufAlike Eq where
  read h _ := by rw [h]
  write h _ := by rw [h]

/-- Both memories are canonical, and `RXBUF` reads alike. -/
def canonicalSameRxbuf (m n : Memory) : Prop :=
  Memory.wf m = true ∧ Memory.wf n = true ∧ ∀ a, m.read (rxbufAddr a) = n.read (rxbufAddr a)

/-- After a write, `RXBUF` holds the message and beyond it what it held before. -/
theorem read_rxbuf_writeBytes {m : Memory} (hm : Memory.wf m = true) (p : List Byte) (a : Nat) :
    (m.writeBytes (rxbufAddr 0) p).read (rxbufAddr a) = p[a]?.getD (m.read (rxbufAddr a)) := by
  rcases Nat.lt_or_ge a p.length with ha | ha
  · rw [List.getElem?_eq_getElem ha]
    exact Memory.read_writeBytes_same hm ha
  · rw [List.getElem?_eq_none ha]
    exact Memory.read_writeBytes_other (.inr (Nat.add_le_add_left ha 0x800))

theorem rxbufAlike_canonicalSameRxbuf : rxbufAlike canonicalSameRxbuf where
  read h := h.2.2
  write := fun ⟨hm, hn, hread⟩ p =>
    ⟨Memory.wf_writeBytes hm, Memory.wf_writeBytes hn, fun a => by
      rw [read_rxbuf_writeBytes hm, read_rxbuf_writeBytes hn, hread]⟩

/-! The receiver's part of the state. -/

/-- Two states agree on all that phases P1 and P3 read and write, `ack_out` included; of their memories `R` holds. -/
structure receiverAlike (R : Memory → Memory → Prop) (s t : State) : Prop extends sameReceiver s t where
  ackOut : s.ackOut = t.ackOut
  mem : R s.mem t.mem

section
variable {R : Memory → Memory → Prop} {s t : State}

/-- A tick begins with the strobes at 0, so that states which agree on the receiver's part agree on `ack_out` as well. -/
theorem receiverAlike.of_quiet (h : sameReceiver s t) (hmem : R s.mem t.mem) : receiverAlike R s.quiet t.quiet :=
  { h with ackOut := rfl, mem := hmem }

theorem receiverAlike.setFlag (h : receiverAlike R s t) (f : Flag) : receiverAlike R (s.setFlag f) (t.setFlag f) :=
  { h with flags := fun g hg => by rw [State.hasFlag_setFlag, State.hasFlag_setFlag, h.flags g hg] }

theorem receiverAlike.doCapture (h : receiverAlike R s t) : receiverAlike R s.doCapture t.doCapture := by
  obtain ⟨hen, hst, hts, hfirst, hlast⟩ := h.roleState
  have hroom : s.rxTs.length < s.build.rxTsDepth ↔ t.rxTs.length < t.build.rxTsDepth := by rw [hts, h.build]
  have happend : s.rxTs ++ [s.now] = t.rxTs ++ [t.now] := by rw [hts, h.now]
  simp only [State.doCapture, hroom]
  split
  · exact { h with roleState := ⟨hen, hst, happend, hfirst, h.now⟩ }
  · refine receiverAlike.setFlag ?_ .rxOvf
    exact { h with roleState := ⟨hen, hst, hts, hfirst, h.now⟩ }

/-- Phase P1 depends on the receiver's part alone. -/
theorem receiverAlike.phaseCapture (h : receiverAlike R s t) (d : Bool) :
    receiverAlike R (s.phaseCapture d) (t.phaseCapture d) := by
  obtain ⟨hen, hst, hts, hfirst, hlast⟩ := h.roleState
  cases d with
  | false => exact h
  | true =>
    simp only [State.phaseCapture, hst, hen, if_true]
    split
    · exact h.doCapture
    · refine { h with roleState := ?_ }
      simp only [State.doStart, h.now, hen, and_self]
    · exact h

/-- What a decode attempt records of ambiguity and overflow. -/
theorem receiverAlike.recordOvf_recordAmbig (h : receiverAlike R s t) (n : Nat) (o : Bool) :
    receiverAlike R ((s.recordAmbig n).recordOvf o) ((t.recordAmbig n).recordOvf o) := by
  obtain ⟨hresult, hambig, hlen⟩ := h.results
  have hrecord : receiverAlike R (s.recordAmbig n) (t.recordAmbig n) := by
    rw [State.recordAmbig, State.recordAmbig]
    split
    · refine receiverAlike.setFlag ?_ .ambig
      exact { h with results := ⟨hresult, rfl, hlen⟩ }
    · exact { h with results := ⟨hresult, rfl, hlen⟩ }
  cases o with
  | false => exact hrecord
  | true => exact hrecord.setFlag .rxOvf

theorem receiverAlike.emitAck (h : receiverAlike R s t) : receiverAlike R s.emitAck t.emitAck :=
  { h with ackOut := rfl }

/-- An outcome that writes `RX_RESULT` and a flag, and nothing else of the receiver. -/
theorem receiverAlike.setResult (h : receiverAlike R s t) (r : RxResult) (f : Flag) :
    receiverAlike R (State.setFlag f { s with rxResult := r }) (State.setFlag f { t with rxResult := r }) := by
  obtain ⟨-, hambig, hlen⟩ := h.results
  refine receiverAlike.setFlag ?_ f
  exact { h with results := ⟨rfl, hambig, hlen⟩ }

theorem receiverAlike.doDeliver (hR : rxbufAlike R) (h : receiverAlike R s t) (q : Bool) (m : List Byte) :
    receiverAlike R (s.doDeliver q m) (t.doDeliver q m) := by
  have hmem := hR.write h.mem m
  obtain ⟨-, hambig, -⟩ := h.results
  refine (receiverAlike.setFlag ?_ .rxMsg).emitAck
  exact { h with session := ⟨rfl, rfl⟩, results := ⟨rfl, hambig, rfl⟩, buffer := hR.read hmem, mem := hmem }

/-- The outcome of a decode attempt depends on the verdict and the receiver's part alone (30_encoding.md R114). -/
theorem receiverAlike.doOutcome (hR : rxbufAlike R) (h : receiverAlike R s t) (v : Verdict) :
    receiverAlike R (s.doOutcome v) (t.doOutcome v) := by
  match v with
  | .err e => exact h.setResult (rxResultOf e) .rxErr
  | .ok [] => exact h.setResult .headerError .rxErr
  | .ok (b :: m) =>
    have hdup : s.isDuplicate (b.getLsbD 0) = t.isDuplicate (b.getLsbD 0) := by
      rw [State.isDuplicate, State.isDuplicate, h.session.1, h.session.2]
    have hmsg : s.hasFlag .rxMsg = t.hasFlag .rxMsg := h.flags .rxMsg (by decide)
    simp only [State.doOutcome, hdup, hmsg]
    split
    · exact (h.setResult .duplicate .rxDup).emitAck
    · split
      · exact h.setResult .busy .rxErr
      · exact h.doDeliver hR _ m

/-- What the window decodes to depends on the receiver's part alone (43_arq_receiver.md R205). -/
theorem sameReceiver.recovered (h : sameReceiver s t) : s.recovered = t.recovered := by
  obtain ⟨hmode, hslot, -, hambig⟩ := h.config
  obtain ⟨-, -, hts, hfirst, -⟩ := h.roleState
  simp only [State.recovered, State.rxTref, State.tslot, hmode, hslot, hambig, hts, hfirst, h.build]

/-- Phase P3 depends on the receiver's part alone. -/
theorem receiverAlike.phaseClose (hR : rxbufAlike R) (h : receiverAlike R s t) :
    receiverAlike R s.phaseClose t.phaseClose := by
  obtain ⟨-, -, hidle, -⟩ := h.config
  obtain ⟨hen, hst, -, hfirst, hlast⟩ := h.roleState
  have hexp : s.idleExpired = t.idleExpired := by
    rw [State.idleExpired, State.idleExpired, State.tidle, State.tidle, hlast, hidle, h.now]
  have hverdict : s.windowVerdict = t.windowVerdict := by
    rw [State.windowVerdict, State.windowVerdict, h.recovered, h.build]
  have hclose : receiverAlike R s.doClose t.doClose := by
    rw [State.doClose, State.doClose, h.recovered, hverdict]
    have hout := (h.recordOvf_recordAmbig t.recovered.namb t.recovered.ovf).doOutcome hR t.windowVerdict
    obtain ⟨hen', -, -, hfirst', hlast'⟩ := hout.roleState
    exact { hout with roleState := ⟨hen', rfl, rfl, hfirst', hlast'⟩ }
  rw [State.phaseClose, State.phaseClose, hst, hexp]
  split
  · split
    · exact hclose
    · exact h
  · exact h

theorem receiverAlike.refl (s : State) : receiverAlike Eq s s :=
  ⟨⟨rfl, rfl, ⟨rfl, rfl, rfl, rfl⟩, ⟨rfl, rfl, rfl, rfl, rfl⟩, ⟨rfl, rfl⟩, ⟨rfl, rfl, rfl⟩, fun _ _ => rfl,
    fun _ => rfl⟩, rfl, rfl⟩

/-- States that each agree with one of two states that agree do so too. -/
theorem receiverAlike.congr {s' t' : State} (h : receiverAlike R s t) (hs : receiverAlike Eq s s')
    (ht : receiverAlike Eq t t') : receiverAlike R s' t' where
  build := hs.build ▸ ht.build ▸ h.build
  now := hs.now ▸ ht.now ▸ h.now
  config := by simpa only [hs.config, ht.config] using h.config
  roleState := by simpa only [hs.roleState, ht.roleState] using h.roleState
  session := by simpa only [hs.session, ht.session] using h.session
  results := by simpa only [hs.results, ht.results] using h.results
  flags f hf := by rw [← hs.flags f hf, ← ht.flags f hf, h.flags f hf]
  buffer a := by rw [← hs.buffer a, ← ht.buffer a, h.buffer a]
  ackOut := hs.ackOut ▸ ht.ackOut ▸ h.ackOut
  mem := hs.mem ▸ ht.mem ▸ h.mem

/-- Phase P2 leaves the receiver's part. -/
theorem receiverAlike.of_phaseAck (a : Bool) (s : State) : receiverAlike Eq s (s.phaseAck a) := by
  obtain ⟨k, e, -⟩ := s.phaseAck_writes a
  rw [e]
  exact { receiverAlike.refl s with }

/-- Phase P4 leaves the receiver's part. -/
theorem receiverAlike.of_phaseTx (s : State) : receiverAlike Eq s s.phaseTx := by
  have hflags : ∀ f ∈ [Flag.rxMsg, .rxDup, .rxErr, .rxOvf, .ambig], s.hasFlag f = s.phaseTx.hasFlag f := by
    intro f hf
    refine (s.hasFlag_phaseTx ?_).symm
    revert hf
    cases f <;> decide
  obtain ⟨_, _, _, _, _, _, _, _, _, _, _, e, -⟩ := s.phaseTx_writes
  rw [e] at hflags ⊢
  exact { receiverAlike.refl s with flags := hflags }

/-- Ticks with the same `data_in` of states that agree on the receiver's part. -/
theorem receiverAlike.tickPhases (hR : rxbufAlike R) (h : sameReceiver s t) (hmem : R s.mem t.mem) (d a a' : Bool) :
    receiverAlike R (s.tickPhases d a) (t.tickPhases d a') := by
  have hcapture := (receiverAlike.of_quiet h hmem).phaseCapture d
  have hack := hcapture.congr (.of_phaseAck a _) (.of_phaseAck a' _)
  exact (hack.phaseClose hR).congr (.of_phaseTx _) (.of_phaseTx _)

end

/-! The sender's part of the state. -/

/-- Two states agree on all that phases P2 and P4 read and write, `data_out` included. -/
structure senderAlike (s t : State) : Prop extends sameSender s t where
  dataOut : s.dataOut = t.dataOut

section
variable {s t : State}

theorem senderAlike.of_quiet (h : sameSender s t) : senderAlike s.quiet t.quiet := { h with dataOut := rfl }

/-- Phase P2 depends on the sender's part alone. -/
theorem senderAlike.phaseAck (h : senderAlike s t) (a : Bool) : senderAlike (s.phaseAck a) (t.phaseAck a) := by
  obtain ⟨hst, hidx, hseq, hseen, hframe⟩ := h.roleState
  cases a with
  | false => exact h
  | true =>
    simp only [State.phaseAck, State.doAckCapture, hst, if_true]
    split
    · exact { h with roleState := ⟨rfl, hidx, hseq, rfl, hframe⟩ }
    all_goals exact h

/-- The dispatch reads the sender's part alone (30_encoding.md R112). -/
theorem sameSender.txOp (h : sameSender s t) : s.txOp = t.txOp := by
  obtain ⟨hslot, -, hmax⟩ := h.config
  obtain ⟨hst, hidx, -, hseen, hframe⟩ := h.roleState
  obtain ⟨ht0, hdead⟩ := h.times
  obtain ⟨hretry, -, -⟩ := h.results
  have hdue : s.due = t.due := by rw [State.due, State.due, State.tslot, State.tslot, h.now, ht0, hidx, hslot]
  have hlast : s.lastBit = t.lastBit := by
    rw [State.lastBit, State.lastBit, State.txNbits, State.txNbits, hidx, hframe]
  have htimed : s.timedOut = t.timedOut := by rw [State.timedOut, State.timedOut, hdead, h.now]
  have hexh : s.exhausted = t.exhausted := by rw [State.exhausted, State.exhausted, hmax, hretry]
  rw [State.txOp, State.txOp, hst, hdue, hlast, hseen, htimed, hexh]

theorem senderAlike.setFlag (h : senderAlike s t) (f : Flag) : senderAlike (s.setFlag f) (t.setFlag f) :=
  { h with flags := fun g hg => by rw [State.hasFlag_setFlag, State.hasFlag_setFlag, h.flags g hg] }

/-- Phase P4 depends on the sender's part alone. -/
theorem senderAlike.phaseTx (h : senderAlike s t) : senderAlike s.phaseTx t.phaseTx := by
  obtain ⟨-, hack, -⟩ := h.config
  obtain ⟨hst, hidx, hseq, hseen, hframe⟩ := h.roleState
  obtain ⟨ht0, hdead⟩ := h.times
  obtain ⟨hretry, hlast, hresult⟩ := h.results
  have hbit : s.frameBit s.txIdx = t.frameBit t.txIdx := by rw [State.frameBit, State.frameBit, hframe, hidx]
  have hbits : s.txNbits = t.txNbits := by rw [State.txNbits, State.txNbits, hframe]
  have hwait : s.now + s.tack = t.now + t.tack := by rw [State.tack, State.tack, h.now, hack]
  have hcount : s.txRetry + 1 = t.txRetry + 1 := by rw [hretry]
  rw [State.phaseTx, State.phaseTx, h.txOp]
  cases t.txOp with
  | holdIdle | holdFailed | waitSlot | wait => exact h
  | emit => exact { h with dataOut := hbit, roleState := ⟨hst, congrArg (· + 1) hidx, hseq, hseen, hframe⟩ }
  | emitLast =>
    exact { h with dataOut := hbit, roleState := ⟨rfl, hbits, hseq, rfl, hframe⟩, times := ⟨ht0, hwait⟩ }
  | acked =>
    refine senderAlike.setFlag ?_ .txDone
    exact { h with roleState := ⟨rfl, hidx, congrArg not hseq, rfl, hframe⟩, results := ⟨rfl, hretry, rfl⟩ }
  | retx =>
    exact { h with
      roleState := ⟨rfl, rfl, hseq, rfl, hframe⟩
      times := ⟨congrArg (· + 1) h.now, hdead⟩
      results := ⟨hcount, hlast, hresult⟩ }
  | fail =>
    refine senderAlike.setFlag ?_ .txFail
    exact { h with roleState := ⟨rfl, hidx, hseq, rfl, hframe⟩, results := ⟨hcount, hlast, rfl⟩ }

theorem senderAlike.refl (s : State) : senderAlike s s :=
  ⟨⟨rfl, ⟨rfl, rfl, rfl⟩, ⟨rfl, rfl, rfl, rfl, rfl⟩, ⟨rfl, rfl⟩, ⟨rfl, rfl, rfl⟩, fun _ _ => rfl⟩, rfl⟩

/-- States that each agree with one of two states that agree do so too. -/
theorem senderAlike.congr {s' t' : State} (h : senderAlike s t) (hs : senderAlike s s') (ht : senderAlike t t') :
    senderAlike s' t' where
  now := hs.now ▸ ht.now ▸ h.now
  config := by simpa only [hs.config, ht.config] using h.config
  roleState := by simpa only [hs.roleState, ht.roleState] using h.roleState
  times := by simpa only [hs.times, ht.times] using h.times
  results := by simpa only [hs.results, ht.results] using h.results
  flags f hf := by rw [← hs.flags f hf, ← ht.flags f hf, h.flags f hf]
  dataOut := hs.dataOut ▸ ht.dataOut ▸ h.dataOut

/-- Phase P1 leaves the sender's part. -/
theorem senderAlike.of_phaseCapture (d : Bool) (s : State) : senderAlike s (s.phaseCapture d) := by
  have hflags : ∀ f ∈ [Flag.txDone, .txFail], s.hasFlag f = (s.phaseCapture d).hasFlag f :=
    fun f hf => (s.hasFlag_phaseCapture (by rintro rfl; revert hf; decide) d).symm
  obtain ⟨_, _, _, _, _, e, -⟩ := s.phaseCapture_writes d
  rw [e] at hflags ⊢
  exact { senderAlike.refl s with flags := hflags }

/-- Phase P3 leaves the sender's part. -/
theorem senderAlike.of_phaseClose (s : State) : senderAlike s s.phaseClose := by
  have hflags : ∀ f ∈ [Flag.txDone, .txFail], s.hasFlag f = s.phaseClose.hasFlag f :=
    fun f hf => (s.hasFlag_phaseClose (List.mem_append_left [Flag.cmdErr] hf)).symm
  obtain ⟨_, _, _, _, _, _, _, _, _, _, e⟩ := s.phaseClose_writes
  rw [e] at hflags ⊢
  exact { senderAlike.refl s with flags := hflags }

/-- Ticks with the same `ack_in` of states that agree on the sender's part. -/
theorem senderAlike.tickPhases (h : sameSender s t) (d d' a : Bool) :
    senderAlike (s.tickPhases d a) (t.tickPhases d' a) := by
  have hcapture := (senderAlike.of_quiet h).congr (.of_phaseCapture d _) (.of_phaseCapture d' _)
  have hclose := (hcapture.phaseAck a).congr (.of_phaseClose _) (.of_phaseClose _)
  exact hclose.phaseTx

end

/-- Settles O54: through the phases of a tick the receiver's part goes by itself, and so does the sender's. -/
theorem rolesDoNotInterfere : Obligations.RolesDoNotInterfere := by
  constructor
  · intro s u t v d a a' h hs hu ht hv
    obtain ⟨-, rfl⟩ := execTick_next ht
    obtain ⟨-, rfl⟩ := execTick_next hv
    have htick := receiverAlike.tickPhases rxbufAlike_canonicalSameRxbuf h ⟨hs, hu, h.buffer⟩ d a a'
    exact ⟨{ htick with now := by rw [h.now] }, htick.ackOut⟩
  · intro s u t v d d' a h ht hv
    obtain ⟨-, rfl⟩ := execTick_next ht
    obtain ⟨-, rfl⟩ := execTick_next hv
    have htick := senderAlike.tickPhases h d d' a
    exact ⟨{ htick with now := by rw [h.now] }, htick.dataOut⟩

/-! The phases of a tick (R80). -/

/-- Two states agree on what no phase of a tick writes and no role reads: with the parts of the two roles, the whole
state. -/
structure sameRest (s t : State) : Prop where
  nowHiShadow : s.nowHiShadow = t.nowHiShadow
  irqEn : s.irqEn = t.irqEn
  errors : s.errCode = t.errCode ∧ s.hasFlag .cmdErr = t.hasFlag .cmdErr
  peer : s.peerId = t.peerId ∧ s.peerValid = t.peerValid
  txLen : s.txLen = t.txLen
  run : s.response = t.response ∧ s.script = t.script

/-- The eight flags are the whole of `FLAGS` (10_state.md R24). -/
theorem State.flags_eq_of_hasFlag {s t : State} (h : ∀ f, s.hasFlag f = t.hasFlag f) : s.flags = t.flags := by
  refine BitVec.eq_of_getLsbD_eq fun i hi => ?_
  have hall : ∀ i < 8, ∃ f : Flag, f.bit = i := by
    intro i hi
    interval_cases i
    exacts [⟨.txDone, rfl⟩, ⟨.txFail, rfl⟩, ⟨.rxMsg, rfl⟩, ⟨.rxDup, rfl⟩, ⟨.rxErr, rfl⟩, ⟨.rxOvf, rfl⟩, ⟨.cmdErr, rfl⟩,
      ⟨.ambig, rfl⟩]
  obtain ⟨f, rfl⟩ := hall i hi
  exact h f

/-- The parts of the two roles and the rest are the whole state. -/
theorem State.eq_of_parts {s t : State} (hr : receiverAlike Eq s t) (hs : senderAlike s t) (h : sameRest s t) :
    s = t := by
  have hflags : s.flags = t.flags := by
    refine State.flags_eq_of_hasFlag fun f => ?_
    cases f
    case txDone | txFail => exact hs.flags _ (by decide)
    case cmdErr => exact h.errors.2
    all_goals exact hr.flags _ (by decide)
  obtain ⟨⟨hbuild, hnow, hconfig, hrole, hsession, hresults, -, -⟩, hackOut, hmem⟩ := hr
  obtain ⟨⟨-, htxConfig, htxRole, htxTimes, htxResults, -⟩, hdataOut⟩ := hs
  obtain ⟨hshadow, hirqEn, ⟨herr, -⟩, hpeer, hlen, hrun⟩ := h
  cases s
  cases t
  simp_all

/-- Phases P3 and P4 commute: each leaves the other role's part, and depends on its own alone (R80). -/
theorem State.phaseClose_phaseTx_comm (s : State) : s.phaseClose.phaseTx = s.phaseTx.phaseClose := by
  have hreceiver : receiverAlike Eq s.phaseClose.phaseTx s.phaseTx.phaseClose :=
    (receiverAlike.refl s.phaseClose).congr (.of_phaseTx _) ((receiverAlike.of_phaseTx s).phaseClose rxbufAlike_eq)
  have hsender : senderAlike s.phaseClose.phaseTx s.phaseTx.phaseClose :=
    (senderAlike.refl s.phaseTx).congr (senderAlike.of_phaseClose s).phaseTx (.of_phaseClose _)
  refine State.eq_of_parts hreceiver hsender ?_
  constructor <;> simp [State.hasFlag_phaseTx, State.hasFlag_phaseClose]

/-- Phase P4 drives `data_out` only in `TX.EMIT` and `TX.EMITLAST` (42_arq_sender.md R183, R184). -/
theorem State.phaseTx_dataOut {s : State} (hquiet : s.dataOut = false) (h : s.phaseTx.dataOut = true) :
    s.txOp = .emit ∨ s.txOp = .emitLast := by
  rw [State.phaseTx] at h
  cases hop : s.txOp with
  | emit => exact .inl rfl
  | emitLast => exact .inr rfl
  | holdIdle | holdFailed | waitSlot | acked | wait | retx | fail =>
    rw [hop] at h
    exact absurd (hquiet.symm.trans h) Bool.false_ne_true

/-- In `SENDING` phase P4 of a tick dispatches as the state before the tick does: no earlier phase writes what it reads
there (30_encoding.md R112). -/
theorem State.txOp_beforeTx {s : State} (h : s.txState = .sending) (d a : Bool) : (s.beforeTx d a).txOp = s.txOp := by
  have hst : (s.beforeTx d a).txState = s.txState := by simp [State.beforeTx]
  have hdue : (s.beforeTx d a).due = s.due := by simp [State.beforeTx, State.due, State.tslot]
  have hlast : (s.beforeTx d a).lastBit = s.lastBit := by simp [State.beforeTx, State.lastBit, State.txNbits]
  simp only [State.txOp, hst, h, hdue, hlast]

/-- The bits of a frame are emitted in `SENDING` only. -/
theorem State.txState_of_emits {s : State} (h : s.txOp = .emit ∨ s.txOp = .emitLast) : s.txState = .sending := by
  have hcases := s.txOp_cases
  rcases h with h | h
  all_goals
    simp only [h, reduceCtorEq, and_false, false_or, or_false] at hcases
    exact hcases.1

/-- Phase P3 writes nothing unless a window is open and the idle threshold has passed (30_encoding.md R113). -/
theorem State.phaseClose_of_not_due {s : State}
    (h : ¬(s.rxState = .receiving ∧ s.rxTlast + s.cfgTidle.toNat < s.now)) : s.phaseClose = s := by
  rw [← s.idleExpired_iff] at h
  rw [State.phaseClose]
  split
  next hst => exact if_neg fun hexp => h ⟨hst, hexp⟩
  · rfl

/-- After a pulse in phase P1 no idle threshold has passed: the window's last stamp is the present, or none is open
(43_arq_receiver.md R202, R203). -/
theorem State.phaseCapture_pulse_not_due (s : State) :
    ¬((s.phaseCapture true).rxState = .receiving ∧
      (s.phaseCapture true).rxTlast + (s.phaseCapture true).cfgTidle.toNat < (s.phaseCapture true).now) := by
  rintro ⟨hopen, hexp⟩
  rcases s.phaseCapture_pulse with ⟨-, -, e⟩ | ⟨-, -, e⟩ | ⟨-, -, e⟩ | ⟨hidle, -, e⟩ <;> rw [e] at hopen hexp
  case inr.inr.inr => rw [hidle] at hopen; cases hopen
  all_goals exact absurd hexp (Nat.not_lt.mpr (Nat.le_add_right _ _))

/-- A tick acknowledges only in phase P3 of a tick without a pulse, on a window past the idle threshold
(43_arq_receiver.md R205, R206). -/
theorem State.tickPhases_ackOut {d a : Bool} {s : State} (h : (s.tickPhases d a).ackOut = true) :
    s.rxState = .receiving ∧ d = false ∧ s.rxTlast + s.cfgTidle.toNat < s.now := by
  rw [State.tickPhases, State.phaseTx_ackOut] at h
  have hdue : (s.quiet.phaseCapture d).rxState = .receiving ∧
      (s.quiet.phaseCapture d).rxTlast + (s.quiet.phaseCapture d).cfgTidle.toNat < (s.quiet.phaseCapture d).now := by
    by_contra hnot
    rw [State.phaseClose_of_not_due (by simpa using hnot)] at h
    simp at h
  cases d with
  | true => exact absurd hdue s.quiet.phaseCapture_pulse_not_due
  | false => exact ⟨hdue.1, rfl, hdue.2⟩

/-- Settles O50: a tick is its phases by definition; what drives each strobe, and that P3 and P4 commute, follow from what
each phase reads and writes. -/
theorem tickPhases : Obligations.TickPhases := by
  intro s d a htime
  refine ⟨_, execTick_ok htime d a, rfl, rfl, rfl, rfl, fun hdata => ?_, State.tickPhases_ackOut (a := a),
    s.phaseClose_phaseTx_comm⟩
  have hemits := State.phaseTx_dataOut (s := s.beforeTx d a) (by simp [State.beforeTx]) hdata
  have hst : s.txState = .sending := by simpa [State.beforeTx] using State.txState_of_emits hemits
  rwa [State.txOp_beforeTx hst] at hemits

/-! The rows that a state does not select (30_encoding.md R112 to R114, log 4). -/

/-- A row of phase P4 that the dispatch does not select. -/
theorem exec_toInstr_of_ne_txOp {op : TxOp} {s : State} (h : op ≠ s.txOp) : exec op.toInstr s = .next s.quiet := by
  have honTx (f : State → State) : s.quiet.onTx op f = s.quiet := if_neg h.symm
  have htimed (f : State → State) : onTxTimed op f s = .next s.quiet := by
    rw [onTxTimed, honTx, decide_eq_false h.symm, Bool.false_and]
    rfl
  cases op with
  | holdIdle | holdFailed | waitSlot | wait => rfl
  | emit | acked | fail => exact congrArg Host.Outcome.next (honTx _)
  | emitLast | retx => exact htimed _

/-- Settles O42: the guard of each row fails, so that only the strobes and the response are cleared. -/
theorem unselectedRowsWriteNothing : Obligations.UnselectedRowsWriteNothing := by
  intro s
  refine ⟨fun op hop => exec_toInstr_of_ne_txOp hop, fun hstart => ?_, fun hidle => ?_, fun hclose => ?_, fun q hdup => ?_,
    fun q hbusy => ?_, fun q m hdeliver => ?_, rfl⟩
  · simp only [exec, execRxStart]
    split
    next hst hen => exact absurd ⟨hst, hen⟩ hstart
    all_goals rfl
  · simp only [exec, execRxCapture, hidle]
  · exact congrArg Host.Outcome.next (State.phaseClose_of_not_due (s := s.quiet) hclose)
  · rw [← s.isDuplicate_iff] at hdup
    exact congrArg Host.Outcome.next (if_neg hdup)
  · refine congrArg Host.Outcome.next (if_neg ?_)
    rw [← s.isDuplicate_iff] at hbusy
    rcases hbusy with hdup | hmsg
    · simp [hdup]
    · have hclear : s.hasFlag .rxMsg = false := hmsg
      simp [hclear]
  · refine congrArg Host.Outcome.next (if_neg ?_)
    rw [← s.isDuplicate_iff] at hdeliver
    rcases hdeliver with hdup | hmsg
    · simp [hdup]
    · have hpending : s.hasFlag .rxMsg = true := hmsg
      simp [hpending]

/-! The bus accesses (R74, R79). -/

/-- The listed offsets are the multiples of 4 up to 0x48 (10_state.md R26). -/
theorem Reg.at?_isSome_iff (off : Nat) : (Reg.at? off).isSome = true ↔ off % 4 = 0 ∧ off ≤ 0x48 := by
  constructor
  · intro h
    obtain ⟨r, hr⟩ := Option.isSome_iff_exists.mp h
    rw [← Reg.offset_of_at? hr]
    cases r <;> decide
  · rintro ⟨halign, hle⟩
    have hall : ∀ k ≤ 18, (Reg.at? (4 * k)).isSome = true := by decide
    have h := hall (off / 4) (by omega)
    rwa [show 4 * (off / 4) = off by omega] at h

/-- The read-only registers by offset (10_state.md R26). -/
theorem Reg.readOnly_iff (r : Reg) :
    r.readOnly = true ↔ r.offset ∈ [0x0C, 0x28, 0x34, 0x38, 0x3C, 0x40, 0x44, 0x48] := by
  cases r <;> decide

/-- An access that no other row stands for is `BUS.ERROR` (20_memory.md R79). -/
theorem exec_access_of_not_legal {a : Access} (h : a.legal = false) (s : State) :
    exec (decode (.bus a)) s = exec (.busError a) s := by
  obtain ⟨op, space, addr, width⟩ := a
  cases space <;> cases op <;> simp [decode, Access.toInstr, h]

/-- What `BUS.ERROR` answers (20_memory.md R79, 60_exceptions.md R266). -/
theorem exec_busError (a : Access) (s : State) :
    exec (.busError a) s = .next { s with
      dataOut := false, ackOut := false,
      response := match a.op with | .rd => .read 0#32 false | .wr _ => .written false } := by
  obtain ⟨op, space, addr, width⟩ := a
  cases op <;> rfl

/-- A read of 4 bytes in `REG`, at any offset. -/
theorem exec_access_regRd (off : Nat) (s : State) :
    exec (decode (.bus ⟨.rd, .reg, off, 4⟩)) s = .next (s.readReg off) := by
  cases h : Reg.at? off with
  | none =>
    rw [exec_access_of_not_legal (by simp [Access.legal, h]), State.readReg, h]
    rfl
  | some r =>
    have hrow : (⟨.rd, .reg, off, 4⟩ : Access).toInstr = .regRd off := if_pos (by simp [Access.legal, h])
    rw [decode, hrow]
    rfl

/-- A write of 4 bytes in `REG`, at any offset: a row of its own does what `REG.WR` does. -/
theorem exec_access_regWr (off : Nat) (v : Word) (s : State) :
    exec (decode (.bus ⟨.wr v, .reg, off, 4⟩)) s = .next (s.writeReg off v) := by
  cases h : Reg.at? off with
  | none =>
    rw [exec_access_of_not_legal (by simp [Access.legal, h]), State.writeReg, h]
    rfl
  | some r =>
    have hlegal : (⟨.wr v, .reg, off, 4⟩ : Access).legal = true := by simp [Access.legal, h]
    simp only [decode, Access.toInstr, hlegal, if_true, h]
    cases r
    case cmd | errCode | selfId | txStatus | rxStatus | rxLen | rxAmbig | nowLo | nowHi => rfl
    all_goals
      rw [State.writeReg, h]
      rfl

/-- A read of 1 byte in a buffer, at any address. -/
theorem exec_access_bufRd (sp : BufSpace) (addr : Nat) (s : State) :
    exec (decode (.bus ⟨.rd, sp.toSpace, addr, 1⟩)) s = .next (s.readBuf sp addr) := by
  cases sp <;> rfl

/-- A write of 1 byte in `TXBUF`, at any address. -/
theorem exec_access_bufWr (addr : Nat) (v : Word) (s : State) :
    exec (decode (.bus ⟨.wr v, .txbuf, addr, 1⟩)) s = .next (s.writeTxbuf addr (v.truncate 8)) := rfl

/-- An access within the rules has `ok = 1` (R74). -/
theorem exec_access_of_allows {a : Access} {s : State} (h : s.allows a) :
    ∃ t, exec (decode (.bus a)) s = .next t ∧
      (match a.op with
        | .rd => ∃ v, t.response = .read v true
        | .wr _ => t.response = .written true) := by
  obtain ⟨op, space, addr, width⟩ := a
  cases space <;> cases op
  case reg.rd =>
    obtain ⟨rfl, hlisted⟩ := h
    obtain ⟨r, hr⟩ := Option.isSome_iff_exists.mp ((Reg.at?_isSome_iff addr).mpr hlisted)
    refine ⟨_, exec_access_regRd addr s, s.regValue r, ?_⟩
    rw [State.readReg, hr]
    rfl
  case reg.wr v =>
    obtain ⟨rfl, halign, hle, hwritable⟩ := h
    obtain ⟨r, hr⟩ := Option.isSome_iff_exists.mp ((Reg.at?_isSome_iff addr).mpr ⟨halign, hle⟩)
    rw [← Reg.offset_of_at? hr, ← r.readOnly_iff] at hwritable
    refine ⟨_, exec_access_regWr addr v s, ?_⟩
    simp only [State.writeReg, hr, if_neg hwritable]
    rfl
  case txbuf.rd =>
    obtain ⟨rfl, hinside⟩ := h
    exact ⟨_, exec_access_bufRd .txbuf addr s, _, by rw [State.readBuf, if_neg (Nat.not_le.mpr hinside)]; rfl⟩
  case rxbuf.rd =>
    obtain ⟨rfl, hinside⟩ := h
    exact ⟨_, exec_access_bufRd .rxbuf addr s, _, by rw [State.readBuf, if_neg (Nat.not_le.mpr hinside)]; rfl⟩
  case txbuf.wr v =>
    obtain ⟨rfl, hinside⟩ := h
    exact ⟨_, exec_access_bufWr addr v s, by rw [State.writeTxbuf, if_neg (Nat.not_le.mpr hinside)]; rfl⟩
  case rxbuf.wr v => exact h.elim

/-- An access outside the rules is answered as `BUS.ERROR` is, whichever row it decodes to (R79). -/
theorem exec_access_of_not_allows {a : Access} {s : State} (h : ¬ s.allows a) :
    exec (decode (.bus a)) s = exec (.busError a) s := by
  cases hlegal : a.legal
  case false => exact exec_access_of_not_legal hlegal s
  obtain ⟨op, space, addr, width⟩ := a
  cases space <;> cases op <;> simp only [Access.legal, Bool.and_eq_true, beq_iff_eq, Bool.false_eq_true] at hlegal
  case reg.rd =>
    obtain ⟨rfl, hsome⟩ := hlegal
    exact absurd ⟨rfl, (Reg.at?_isSome_iff addr).mp hsome⟩ h
  case reg.wr v =>
    obtain ⟨rfl, hsome⟩ := hlegal
    obtain ⟨halign, hle⟩ := (Reg.at?_isSome_iff addr).mp hsome
    obtain ⟨r, hr⟩ := Option.isSome_iff_exists.mp hsome
    have hro : r.readOnly = true := by
      by_contra hwritable
      rw [r.readOnly_iff, Reg.offset_of_at? hr] at hwritable
      exact h ⟨rfl, halign, hle, hwritable⟩
    rw [exec_access_regWr, State.writeReg, hr]
    exact congrArg Host.Outcome.next (if_pos hro)
  case txbuf.rd =>
    subst hlegal
    exact (exec_access_bufRd .txbuf addr s).trans
      (congrArg Host.Outcome.next (if_pos (Nat.not_lt.mp fun hinside => h ⟨rfl, hinside⟩)))
  case rxbuf.rd =>
    subst hlegal
    exact (exec_access_bufRd .rxbuf addr s).trans
      (congrArg Host.Outcome.next (if_pos (Nat.not_lt.mp fun hinside => h ⟨rfl, hinside⟩)))
  case txbuf.wr v =>
    subst hlegal
    exact (exec_access_bufWr addr v s).trans
      (congrArg Host.Outcome.next (if_pos (Nat.not_lt.mp fun hinside => h ⟨rfl, hinside⟩)))

/-- A write to a locked register while the block is not quiescent is `CmdReject(LOCKED)` (44_host_interface.md R238,
R239). -/
theorem exec_access_locked {s : State} (hq : s.quiescent = false) {off : Nat}
    (hoff : off ∈ [0x10, 0x14, 0x18, 0x1C, 0x20, 0x24, 0x2C]) (v : Word) :
    exec (decode (.bus ⟨.wr v, .reg, off, 4⟩)) s = .next (s.afterReject .locked) := by
  have hlocked (f : State → State) : (s.writeLocked f).answer (.written true) = s.afterReject .locked := by
    rw [State.writeLocked, hq]
    rfl
  rw [exec_access_regWr]
  simp only [List.mem_cons, List.not_mem_nil, or_false] at hoff
  rcases hoff with rfl | rfl | rfl | rfl | rfl | rfl | rfl
  all_goals exact congrArg Host.Outcome.next (hlocked _)

/-- Settles O28: the rules of width, offset, address and read-only against the row that each access decodes to. -/
theorem busAccessLegality : Obligations.BusAccessLegality := by
  intro a s
  refine ⟨exec_access_of_allows, fun h => ?_, exec_access_regRd 0x00 s, fun hactive off hoff v => ?_⟩
  · exact (exec_access_of_not_allows h).trans (exec_busError a s)
  · rw [← s.quiescent_iff, Bool.not_eq_true] at hactive
    exact exec_access_locked hactive hoff v

end Sys2Proof.Machine
end

section
/-! PROOFS. The statements about the encoding (30_encoding.md): the decoder against the encoder, format by format. First
the facts about each format's decoder, each said once; then the two directions. -/

namespace Sys2Proof.Machine

/-! Format `FRAME` (R101, 41_frame_codec.md R152 to R161): what the encoder writes unescapes, checks and decodes. -/

theorem flagByte_notMem_frEscape (body : List Byte) : flagByte ∉ frEscape body := by
  induction body with
  | nil => exact List.not_mem_nil
  | cons b body ih =>
    rw [frEscape]
    split
    next hspecial =>
      have hmask : flagByte ≠ b ^^^ maskByte := by rcases hspecial with rfl | rfl <;> decide
      have hesc : flagByte ≠ escByte := by decide
      simp [hmask, hesc, ih]
    next hplain =>
      rw [not_or] at hplain
      simp [Ne.symm hplain.1, ih]

theorem frUnescape_frEscape (body : List Byte) : frUnescape (frEscape body) = .ok body := by
  induction body with
  | nil => rfl
  | cons b body ih =>
    rw [frEscape]
    split
    · rw [frUnescape_pair, xor_mask_twice, ih, pushByte]
    next hplain =>
      rw [not_or] at hplain
      rw [frUnescape_literal hplain.2, ih, pushByte]

/-- A payload with its own CRC passes the checks of a bound that it meets (R160, R161). -/
theorem frCheck_append_crc32le {p : List Byte} {bodyMax : Nat} (h : p.length + 4 ≤ bodyMax) :
    frCheck bodyMax (p ++ crc32le p) = .ok p := by
  have hlen : (p ++ crc32le p).length = p.length + 4 := by rw [List.length_append, length_crc32le]
  simp [frCheck, hlen, Nat.not_lt.mpr h]

/-- The raw bytes before a closing FLAG decode by what they unescape to (R158 to R161). -/
theorem frDecodeRaw_of_ok {raw body : List Byte} (hraw : flagByte ∉ raw) (hbody : frUnescape raw = .ok body)
    (bodyMax : Nat) : frDecodeRaw bodyMax (raw ++ [flagByte]) = frCheck bodyMax body := by
  simp only [frDecodeRaw, untilFlag_append hraw, hbody]

theorem frDecodeRaw_of_err {raw : List Byte} {e : FrameError} (hraw : flagByte ∉ raw) (herr : frUnescape raw = .err e)
    (bodyMax : Nat) : frDecodeRaw bodyMax (raw ++ [flagByte]) = .err e := by
  simp only [frDecodeRaw, untilFlag_append hraw, herr]

/-- Bits that begin with a FLAG decode as the bytes after it (R157). -/
theorem frDecode_bitsOf_flag (bytes : List Byte) (bodyMax : Nat) :
    frDecode (bitsOf (flagByte :: bytes)) bodyMax = frDecodeRaw bodyMax bytes := by
  have hopen : afterFlag (bitsOf (flagByte :: bytes)) = some (bitsOf bytes) :=
    (afterFlag_cons _ _).1 ⟨bitsOf bytes, rfl⟩
  have hbytes : bytesOf (bitsOf bytes) = bytes := by
    simpa [bytesOf] using bytesOf_bitsOf_append bytes []
  simp only [frDecode, hopen, hbytes]

/-- Raw bytes that stand between the flags of a frame unescape to its payload and CRC. -/
theorem frUnescape_of_frEncode_eq {p raw : List Byte} (h : frEncode p = flagByte :: raw ++ [flagByte]) :
    frUnescape raw = .ok (p ++ crc32le p) := by
  have hmid : frEscape (p ++ crc32le p) = raw := List.append_cancel_right (List.cons.inj h).2
  rw [← hmid, frUnescape_frEscape]

/-- The payload of a Raw Frame that the encoder writes (R101). -/
theorem framePayload_frEncode {p : List Byte} (h : p.length ≤ payloadLimit + 1) :
    framePayload (frEncode p) = some p := by
  have hraw : frDecodeRaw (payloadLimit + 5) ((frEncode p).drop 1) = .ok p :=
    (frDecodeRaw_of_ok (flagByte_notMem_frEscape _) (frUnescape_frEscape _) _).trans
      (frCheck_append_crc32le (Nat.add_le_add_right h 4))
  simp only [framePayload, hraw, if_true]

theorem decode_frame_frEncode {p : List Byte} (h : p.length ≤ payloadLimit + 1) :
    decode (.frame (frEncode p)) = .frame p := by
  simp only [decode, decodeFrame, framePayload_frEncode h]

/-- Bytes that are no encoding of a payload stand for `FR.DECODE` (R116, log 2). -/
theorem decode_frame_of_ne_frEncode {bytes : List Byte}
    (h : ∀ p : List Byte, p.length ≤ payloadLimit + 1 → frEncode p ≠ bytes) :
    decode (.frame bytes) = .frDecode (bitsOf bytes) (payloadLimit + 5) := by
  have hnone : framePayload bytes = none := by
    cases hp : framePayload bytes with
    | none => rfl
    | some p => exact absurd (framePayload_eq_some hp).1 (h p (framePayload_eq_some hp).2)
  simp only [decode, decodeFrame, hnone]

/-- Bytes between two flags that are no encoding of a payload answer with the verdict on them. -/
theorem exec_decode_frame_of_ne {raw : List Byte}
    (h : ∀ p : List Byte, p.length ≤ payloadLimit + 1 → frEncode p ≠ flagByte :: raw ++ [flagByte]) (s : State) :
    exec (decode (.frame (flagByte :: raw ++ [flagByte]))) s
      = .next (s.answer (.verdict (frDecodeRaw (payloadLimit + 5) (raw ++ [flagByte])))) := by
  rw [decode_frame_of_ne_frEncode h, ← frDecode_bitsOf_flag]
  rfl

/-! Format `WIRE` (R102, R103, R116). -/

theorem decode_wire_flag (after : Option Byte) : decode (.wire flagByte after) = .wireFlag := rfl

theorem decode_wire_pair {x : Byte} (h : x ≠ flagByte) : decode (.wire escByte (some x)) = .wireEsc x :=
  if_neg h

/-- An ESC before the closing FLAG dangles. -/
theorem decode_wire_dangling {after : Option Byte} (h : after = none ∨ after = some flagByte) :
    decode (.wire escByte after) = .frUnescape [escByte] := by
  rcases h with rfl | rfl <;> rfl

theorem decode_wire_literal {b : Byte} (hflag : b ≠ flagByte) (hesc : b ≠ escByte) (after : Option Byte) :
    decode (.wire b after) = .wireLit b := by
  simp only [decode, decodeWire, if_neg hflag, if_neg hesc]

/-! Format `CMD` (R107 to R109). -/

/-- A value above 4 is none of the five commands. -/
theorem ne_command_of_gt {v : Word} (h : 4 < v.toNat) : v ≠ 0 ∧ v ≠ 1 ∧ v ≠ 2 ∧ v ≠ 3 ∧ v ≠ 4 := by
  bv_omega

theorem decode_cmd_reserved {v : Word} (h : 4 < v.toNat) : decode (.cmd v) = .cmdReserved v := by
  simp only [decode, decodeCmd, ne_command_of_gt h, if_false]

/-- A value of `CMD` is one of the five commands, or reserved. -/
theorem cmd_cases (v : Word) : v = 0 ∨ v = 1 ∨ v = 2 ∨ v = 3 ∨ v = 4 ∨ 4 < v.toNat := by
  bv_omega

/-! Format `BUS` (R111, 10_state.md R26, 20_memory.md R74). -/

theorem legal_reg (op : BusOp) (off : Nat) : (⟨op, .reg, off, 4⟩ : Access).legal = (Reg.at? off).isSome := by
  cases op <;> rfl

theorem decode_bus_regRd {off : Nat} (h : (Reg.at? off).isSome = true) :
    decode (.bus ⟨.rd, .reg, off, 4⟩) = .regRd off :=
  if_pos ((legal_reg .rd off).trans h)

/-- A write to a register without a row of its own is `REG.WR`. -/
theorem decode_bus_regWr {off : Nat} {r : Reg} (h : Reg.at? off = some r) (hrow : r.hasOwnRow = false) (v : Word) :
    decode (.bus ⟨.wr v, .reg, off, 4⟩) = .regWr off v := by
  have hlegal : (⟨.wr v, .reg, off, 4⟩ : Access).legal = true := by rw [legal_reg, h]; rfl
  simp only [decode, Access.toInstr, hlegal, if_true, h]
  cases r
  case cmd | errCode | selfId | txStatus | rxStatus | rxLen | rxAmbig | nowLo | nowHi => rfl
  all_goals cases hrow

/-- A write to a register that has a row of its own decodes to that row, which is well formed and keeps offset and
value. -/
theorem decode_bus_ownRow {off : Nat} {r : Reg} (h : Reg.at? off = some r) (hrow : r.hasOwnRow = true) (v : Word) :
    (decode (.bus ⟨.wr v, .reg, off, 4⟩)).wf = true ∧
      encode (decode (.bus ⟨.wr v, .reg, off, 4⟩)) = .bus ⟨.wr v, .reg, off, 4⟩ := by
  obtain rfl := Reg.offset_of_at? h
  cases r
  case flags | irqEn | txLen | peerId | cfgMode | cfgTslot | cfgTidle | cfgTack | cfgMaxRetry | cfgAmbig =>
    exact ⟨rfl, rfl⟩
  all_goals cases hrow

/-- An access that no other row stands for. -/
theorem decode_bus_of_not_legal {a : Access} (h : a.legal = false) : decode (.bus a) = .busError a :=
  toInstr_of_not_legal h

/-- The legal accesses (20_memory.md R74, R79). -/
theorem legal_iff {a : Access} :
    a.legal = true ↔ (match a.space, a.op with
      | .reg, _ => a.width = 4 ∧ a.addr % 4 = 0 ∧ a.addr ≤ 0x48
      | .txbuf, _ => a.width = 1
      | .rxbuf, .rd => a.width = 1
      | .rxbuf, .wr _ => False) := by
  obtain ⟨op, space, addr, width⟩ := a
  cases space <;> cases op <;> simp [Access.legal, Reg.at?_isSome_iff]

/-! The two directions, for every operation and for every record that is used whole. -/

/-- What a one-byte access writes is its value. -/
theorem zeroExtend_truncate_byte {v : Word} (h : v.toNat < 2 ^ 8) : (v.truncate 8).zeroExtend 32 = v := by
  refine BitVec.eq_of_toNat_eq ?_
  simp only [BitVec.toNat_setWidth]
  omega

/-- Settles O1: by the format of the operation; the frame codec and the register map are inverted by their lemmas. -/
theorem decodeEncodeAgree : Obligations.DecodeEncodeAgree := by
  intro i hwf
  cases i
  case cmdReserved v => exact decode_cmd_reserved (of_decide_eq_true hwf)
  case wireEsc x => exact decode_wire_pair (bne_iff_ne.mp hwf)
  case wireLit b =>
    obtain ⟨hflag, hesc⟩ := Bool.and_eq_true_iff.mp hwf
    exact decode_wire_literal (bne_iff_ne.mp hflag) (bne_iff_ne.mp hesc) none
  case hdr q => exact congrArg Instr.hdr (headerByte_getLsbD q)
  case frame p => exact decode_frame_frEncode (of_decide_eq_true hwf)
  case regRd off => exact decode_bus_regRd hwf
  case regWr off v =>
    rw [Instr.wf] at hwf
    split at hwf
    next r hr => exact decode_bus_regWr hr (by simpa using hwf) v
    · cases hwf
  case bufRd space a => cases space <;> rfl
  case bufWr a b => exact congrArg (Instr.bufWr a) (truncate_zeroExtend_byte b)
  case busError a => exact decode_bus_of_not_legal (by simpa [Instr.wf] using hwf)
  case rxDup q => exact congrArg Instr.rxDup (headerByte_getLsbD q)
  case rxBusy q => exact congrArg Instr.rxBusy (headerByte_getLsbD q)
  case rxDeliver q m => exact congrArg (Instr.rxDeliver · m) (headerByte_getLsbD q)
  all_goals rfl

theorem encode_decode_cmd (v : Word) : encode (decode (.cmd v)) = .cmd v := by
  rcases cmd_cases v with rfl | rfl | rfl | rfl | rfl | h
  case inr.inr.inr.inr.inr => rw [decode_cmd_reserved h]; rfl
  all_goals rfl

theorem encode_decode_wire {b : Byte} {after : Option Byte} (h : usedWhole (.wire b after)) :
    encode (decode (.wire b after)) = .wire b after := by
  rw [usedWhole] at h
  split at h
  next hesc =>
    obtain ⟨x, rfl, hx⟩ := h
    rw [hesc, decode_wire_pair hx]
    rfl
  next hesc =>
    subst h
    by_cases hflag : b = flagByte
    · rw [hflag]; rfl
    · rw [decode_wire_literal hflag hesc]; rfl

theorem encode_decode_bus {a : Access} (h : usedWhole (.bus a)) : encode (decode (.bus a)) = .bus a := by
  cases hlegal : a.legal
  case false => rw [decode_bus_of_not_legal hlegal]; rfl
  obtain ⟨op, space, addr, width⟩ := a
  rw [legal_iff] at hlegal
  cases space <;> cases op
  case reg.rd =>
    obtain ⟨rfl, hlisted⟩ := hlegal
    rw [decode_bus_regRd ((Reg.at?_isSome_iff addr).mpr hlisted)]
    rfl
  case reg.wr v =>
    obtain ⟨rfl, hlisted⟩ := hlegal
    obtain ⟨r, hr⟩ := Option.isSome_iff_exists.mp ((Reg.at?_isSome_iff addr).mpr hlisted)
    cases hrow : r.hasOwnRow
    · rw [decode_bus_regWr hr hrow]; rfl
    · exact (decode_bus_ownRow hr hrow v).2
  case txbuf.wr v =>
    obtain rfl : width = 1 := hlegal
    show Record.bus ⟨.wr ((v.truncate 8).zeroExtend 32), .txbuf, addr, 1⟩ = _
    rw [zeroExtend_truncate_byte (h v rfl rfl)]
  case txbuf.rd | rxbuf.rd =>
    obtain rfl : width = 1 := hlegal
    rfl
  case rxbuf.wr v => exact hlegal.elim

/-- Settles O2: by the format of the record. -/
theorem wordsHaveOneMeaning : Obligations.WordsHaveOneMeaning := by
  intro r h
  cases r with
  | frame bytes =>
    obtain ⟨p, hp, rfl⟩ := h
    rw [decode_frame_frEncode hp]
    rfl
  | wire b after => exact encode_decode_wire h
  | cmd v => exact encode_decode_cmd v
  | bus a => exact encode_decode_bus h
  | func c => cases c <;> rfl
  | tick d a | reset | ackStrobe => rfl
  | hdr b | txv v | rxvP1 r e i | rxvP3 v | rxo v q b => exact h.elim

end Sys2Proof.Machine
end

section
/-! PROOFS. The three dispatch tables (30_encoding.md R112 to R114): for each vector one row and no other matches, and
its operation is what the phase performs. -/

namespace Sys2Proof.Machine

/-- `row` is the row of a dispatch table that matches a vector, and no other does. -/
def onlyMatch {w : Nat} {α : Type} (rows : List (BitVec w × BitVec w × α)) (v : BitVec w)
    (row : BitVec w × BitVec w × α) : Prop :=
  row ∈ rows ∧ rowMatches row.1 row.2.1 v ∧ ∀ other ∈ rows, rowMatches other.1 other.2.1 v → other = row

/-! The sender's table (R112). -/

/-- A row matches a vector exactly where the table's function gives its operation. -/
theorem txvRows_match : ∀ row ∈ txvRows, ∀ v : BitVec 7,
    rowMatches row.1 row.2.1 (v.zeroExtend 8) ↔ row.2.2 = txvOp v := by
  simp only [rowMatches]
  decide +kernel

/-- Each operation has one row. -/
theorem txvRows_op : ∀ op : TxOp, ∃ row ∈ txvRows, row.2.2 = op ∧ ∀ other ∈ txvRows, other.2.2 = op → other = row := by
  intro op
  cases op <;> decide

theorem txvRows_onlyMatch (v : BitVec 7) : ∃ row, onlyMatch txvRows (v.zeroExtend 8) row ∧ row.2.2 = txvOp v := by
  obtain ⟨row, hmem, hop, honly⟩ := txvRows_op (txvOp v)
  exact ⟨row, ⟨hmem, (txvRows_match row hmem v).mpr hop,
    fun other hother hmatch => honly other hother ((txvRows_match other hother v).mp hmatch)⟩, hop⟩

/-- The leading bit of the sender's vector is 0, and the table gives for the others what the dispatch selects. -/
theorem State.txVector_spec (s : State) :
    s.txVector = (s.txVector.truncate 7).zeroExtend 8 ∧ txvOp (s.txVector.truncate 7) = s.txOp := by
  simp only [State.txVector, State.txOp]
  generalize s.due = d, s.lastBit = l, s.ackSeen = k, s.timedOut = t, s.exhausted = x
  revert d l k t x
  cases s.txState <;> decide +kernel

/-- The operation that the dispatch selects, performed alone inside the no-overflow premise, is phase P4. -/
theorem exec_toInstr_txOp {s : State} (htime : s.timeOk = true) : exec s.txOp.toInstr s = .next s.quiet.phaseTx := by
  have honTx {op : TxOp} (hop : s.txOp = op) (f : State → State) : s.quiet.onTx op f = f s.quiet := if_pos hop
  have htimed {op : TxOp} (hop : s.txOp = op) (f : State → State) : onTxTimed op f s = .next (f s.quiet) := by
    rw [onTxTimed, honTx hop, htime, Bool.not_true, Bool.and_false]
    rfl
  rw [State.phaseTx_eq, State.txOp_quiet]
  cases hop : s.txOp with
  | holdIdle | holdFailed | waitSlot | wait => rfl
  | emit | acked | fail => exact congrArg Host.Outcome.next (honTx hop _)
  | emitLast | retx => exact htimed hop _

/-- Settles O5: the vector's bits stand in the order of the rule, and the table is the function that dispatches. -/
theorem txDispatchTable : Obligations.TxDispatchTable := by
  intro s htime
  obtain ⟨hvector, hop⟩ := s.txVector_spec
  obtain ⟨row, ⟨hmem, hmatch, honly⟩, hrow⟩ := txvRows_onlyMatch (s.txVector.truncate 7)
  rw [← hvector] at hmatch honly
  refine ⟨rfl, row, hmem, hmatch, honly, ?_⟩
  rw [hrow, hop]
  exact exec_toInstr_txOp htime

/-! The receiver's table (R113). -/

theorem State.idleExpired_eq (s : State) :
    s.idleExpired = decide ((s.cfgTidle.toNat : Int) < (s.now : Int) - (s.rxTlast : Int)) := by
  rw [Bool.eq_iff_iff, State.idleExpired_iff, decide_eq_true_eq]
  omega

/-- A row of phase P1 that the state selects performs the phase. -/
theorem exec_rxStart_of_armed {s : State} (hst : s.rxState = .idle) (hen : s.rxEn = true) :
    exec .rxStart s = .next (s.quiet.phaseCapture true) := by
  simp [exec, execRxStart, State.phaseCapture, hst, hen]

theorem exec_rxCapture_of_open {s : State} (hst : s.rxState = .receiving) :
    exec .rxCapture s = .next (s.quiet.phaseCapture true) := by
  simp [exec, execRxCapture, State.phaseCapture, hst]

/-- With no window open a pulse that finds the receiver disarmed is dropped. -/
theorem State.phaseCapture_of_disarmed {s : State} (hst : s.rxState = .idle) (hen : s.rxEn = false) (d : Bool) :
    s.phaseCapture d = s := by
  cases d <;> simp [State.phaseCapture, hst, hen]

theorem State.phaseClose_of_idle {s : State} (hst : s.rxState = .idle) : s.phaseClose = s := by
  simp only [State.phaseClose, hst]

/-- In a tick with a pulse phase P3 writes nothing, so that `RX.WAIT` is what it performs. -/
theorem State.phaseClose_quiet_phaseCapture_pulse (s : State) :
    (s.phaseCapture true).quiet.phaseClose = (s.phaseCapture true).quiet :=
  State.phaseClose_of_not_due s.phaseCapture_pulse_not_due

/-- The row of R113 by the bits of the vector. -/
def rxvRow (r e d i : Bool) : BitVec 4 × BitVec 4 × Option RxOp1 × Option RxOp3 :=
  match r, d with
  | false, false => (0b1010, 0b0000, none, none)
  | false, true => if e then (0b1110, 0b0110, some .start, some .waitStart) else (0b1110, 0b0010, some .ignore, none)
  | true, true => (0b1010, 0b1010, some .capture, some .waitCapture)
  | true, false => if i then (0b1011, 0b1001, none, some .close) else (0b1011, 0b1000, none, some .waitQuiet)

theorem rxvRows_onlyMatch : ∀ r e d i : Bool,
    onlyMatch rxvRows (BitVec.ofBool r ++ BitVec.ofBool e ++ BitVec.ofBool d ++ BitVec.ofBool i) (rxvRow r e d i) := by
  simp only [onlyMatch, rowMatches]
  decide

theorem RxState.code_eq_ofBool (st : RxState) : st.code = BitVec.ofBool (st == .receiving) := by
  cases st <;> rfl

/-- Settles O6: the row by the bits of the vector, and its two phases by the state, the pulse and the idle threshold. -/
theorem rxDispatchTable : Obligations.RxDispatchTable := by
  intro s d
  refine ⟨by rw [State.rxVector, State.idleExpired_eq], ?_⟩
  obtain ⟨hmem, hmatch, honly⟩ := rxvRows_onlyMatch (s.rxState == .receiving) s.rxEn d s.idleExpired
  rw [← RxState.code_eq_ofBool] at hmatch honly
  refine ⟨_, hmem, hmatch, honly, ?_⟩
  cases hst : s.rxState <;> cases d
  case idle.false => exact ⟨rfl, State.phaseClose_of_idle hst⟩
  case idle.true =>
    cases hen : s.rxEn
    · have hdrop (t : State) (ht : t.rxState = .idle ∧ t.rxEn = false) : t.phaseCapture true = t :=
        State.phaseCapture_of_disarmed ht.1 ht.2 true
      refine ⟨congrArg Host.Outcome.next (hdrop s.quiet ⟨hst, hen⟩).symm, ?_⟩
      rw [hdrop s ⟨hst, hen⟩]
      exact State.phaseClose_of_idle hst
    · exact ⟨exec_rxStart_of_armed hst hen,
        congrArg Host.Outcome.next s.phaseClose_quiet_phaseCapture_pulse.symm⟩
  case receiving.true =>
    exact ⟨exec_rxCapture_of_open hst, congrArg Host.Outcome.next s.phaseClose_quiet_phaseCapture_pulse.symm⟩
  case receiving.false =>
    cases hexp : s.idleExpired
    · have hwait : s.quiet.phaseClose = s.quiet :=
        State.phaseClose_of_not_due fun h => Bool.false_ne_true (hexp.symm.trans (s.idleExpired_iff.mpr h.2))
      exact ⟨rfl, congrArg Host.Outcome.next hwait.symm⟩
    · exact ⟨rfl, rfl⟩

/-! The outcome table (R114). -/

theorem exec_rxDup_of_duplicate {s : State} {q : Bool} (h : s.isDuplicate q = true) :
    exec (.rxDup q) s = .next s.quiet.doDup :=
  congrArg Host.Outcome.next (if_pos h)

theorem exec_rxBusy_of_pending {s : State} {q : Bool} (hdup : s.isDuplicate q = false)
    (hmsg : s.hasFlag .rxMsg = true) :
    exec (.rxBusy q) s = .next s.quiet.doBusy :=
  congrArg Host.Outcome.next (if_pos (by rw [hdup, hmsg]; rfl))

theorem exec_rxDeliver_of_new {s : State} {q : Bool} {m : List Byte} (hdup : s.isDuplicate q = false)
    (hmsg : s.hasFlag .rxMsg = false) (hm : m.length ≤ s.build.maxPayload) :
    exec (.rxDeliver q m) s = .next (s.quiet.doDeliver q m) :=
  congrArg Host.Outcome.next (if_pos (by simp [hdup, hmsg, hm]))

theorem State.doOutcome_of_duplicate {s : State} {h : Byte} (hdup : s.isDuplicate (h.getLsbD 0) = true)
    (m : List Byte) :
    s.doOutcome (.ok (h :: m)) = s.doDup := if_pos hdup

theorem State.doOutcome_of_pending {s : State} {h : Byte} (hdup : s.isDuplicate (h.getLsbD 0) = false)
    (hmsg : s.hasFlag .rxMsg = true) (m : List Byte) : s.doOutcome (.ok (h :: m)) = s.doBusy :=
  (if_neg (ne_true_of_eq_false hdup)).trans (if_pos hmsg)

theorem State.doOutcome_of_new {s : State} {h : Byte} (hdup : s.isDuplicate (h.getLsbD 0) = false)
    (hmsg : s.hasFlag .rxMsg = false) (m : List Byte) : s.doOutcome (.ok (h :: m)) = s.doDeliver (h.getLsbD 0) m :=
  (if_neg (ne_true_of_eq_false hdup)).trans (if_neg (ne_true_of_eq_false hmsg))

/-- The row of R114 by the bits of the vector, in priority order. -/
def rxoRow (f h q b : Bool) : BitVec 4 × BitVec 4 × RxOutcome × Bool × Bool :=
  if !f then (0b1000, 0b0000, .dropErr, false, false)
  else if !h then (0b1100, 0b1000, .dropHdr, false, false)
  else if q then (0b1110, 0b1110, .dup, true, false)
  else if b then (0b1111, 0b1101, .busy, false, false)
  else (0b1111, 0b1100, .deliver, true, true)

theorem rxoRows_onlyMatch : ∀ f h q b : Bool,
    onlyMatch rxoRows (BitVec.ofBool f ++ BitVec.ofBool h ++ BitVec.ofBool q ++ BitVec.ofBool b) (rxoRow f h q b) := by
  simp only [onlyMatch, rowMatches]
  decide

/-- Settles O7: by the priority of R114, the error, the empty payload, the duplicate, the busy mailbox, the delivery. -/
theorem outcomeTable : Obligations.OutcomeTable := by
  intro s v hfits
  constructor
  · rintro h m rfl
    rfl
  cases v with
  | err e =>
    obtain ⟨hmem, hmatch, honly⟩ := rxoRows_onlyMatch false false false false
    exact ⟨_, hmem, hmatch, honly, rfl, rfl, fun _ => ⟨rfl, rfl, rfl, rfl⟩⟩
  | ok p =>
    cases p with
    | nil =>
      obtain ⟨hmem, hmatch, honly⟩ := rxoRows_onlyMatch true false false false
      exact ⟨_, hmem, hmatch, honly, rfl, rfl, fun _ => ⟨rfl, rfl, rfl, rfl⟩⟩
    | cons h m =>
      obtain ⟨hmem, hmatch, honly⟩ :=
        rxoRows_onlyMatch true true (s.isDuplicate (h.getLsbD 0)) (s.hasFlag .rxMsg)
      refine ⟨_, hmem, hmatch, honly, ?_⟩
      cases hdup : s.isDuplicate (h.getLsbD 0)
      · cases hmsg : s.hasFlag .rxMsg
        · rw [State.doOutcome_of_new (s := s.quiet) hdup hmsg]
          have hm : m.length ≤ s.build.maxPayload := Nat.le_of_succ_le_succ (hfits _ rfl)
          exact ⟨exec_rxDeliver_of_new hdup hmsg hm, rfl, fun hrow => absurd hrow.symm Bool.false_ne_true⟩
        · rw [State.doOutcome_of_pending (s := s.quiet) hdup hmsg]
          exact ⟨exec_rxBusy_of_pending hdup hmsg, rfl, fun _ => ⟨rfl, rfl, rfl, rfl⟩⟩
      · rw [State.doOutcome_of_duplicate (s := s.quiet) hdup]
        exact ⟨exec_rxDup_of_duplicate hdup, rfl, fun _ => ⟨rfl, rfl, rfl, rfl⟩⟩

end Sys2Proof.Machine
end

section
/-! PROOFS. The treatment of every encoding (30_encoding.md R116), the serialisation of bytes (R104), and the rows that
write no state of the block (R115) or nothing but the rejection of a command (R109). -/

namespace Sys2Proof.Machine

/-! Every record decodes to a well-formed operation, but for the operands that no encoding bounds. -/

theorem wf_decode_frame (bytes : List Byte) : (decode (.frame bytes)).wf = true := by
  rw [decode, decodeFrame]
  split
  next p hp => exact decide_eq_true (framePayload_eq_some hp).2
  · rfl

theorem wf_decode_wire (b : Byte) (after : Option Byte) : (decode (.wire b after)).wf = true := by
  by_cases hflag : b = flagByte
  · rw [hflag]; rfl
  by_cases hesc : b = escByte
  · rw [hesc]
    by_cases hnext : after = none ∨ after = some flagByte
    · rw [decode_wire_dangling hnext]; rfl
    · obtain ⟨hnone, hsome⟩ := not_or.mp hnext
      obtain ⟨x, rfl⟩ := Option.ne_none_iff_exists'.mp hnone
      have hx : x ≠ flagByte := fun h => hsome (congrArg some h)
      rw [decode_wire_pair hx]
      exact bne_iff_ne.mpr hx
  · rw [decode_wire_literal hflag hesc]
    simp [Instr.wf, hflag, hesc]

theorem wf_decode_cmd (v : Word) : (decode (.cmd v)).wf = true := by
  rcases cmd_cases v with rfl | rfl | rfl | rfl | rfl | h
  case inr.inr.inr.inr.inr =>
    rw [decode_cmd_reserved h]
    exact decide_eq_true h
  all_goals rfl

theorem wf_decode_bus (a : Access) : (decode (.bus a)).wf = true := by
  cases hlegal : a.legal
  case false =>
    rw [decode_bus_of_not_legal hlegal, Instr.wf, hlegal]
    rfl
  obtain ⟨op, space, addr, width⟩ := a
  rw [legal_iff] at hlegal
  cases space <;> cases op
  case reg.rd =>
    obtain ⟨rfl, hlisted⟩ := hlegal
    have hsome := (Reg.at?_isSome_iff addr).mpr hlisted
    rw [decode_bus_regRd hsome]
    exact hsome
  case reg.wr v =>
    obtain ⟨rfl, hlisted⟩ := hlegal
    obtain ⟨r, hr⟩ := Option.isSome_iff_exists.mp ((Reg.at?_isSome_iff addr).mpr hlisted)
    cases hrow : r.hasOwnRow
    · rw [decode_bus_regWr hr hrow]
      simp [Instr.wf, hr, hrow]
    · exact (decode_bus_ownRow hr hrow v).1
  case txbuf.rd | txbuf.wr | rxbuf.rd =>
    obtain rfl : width = 1 := hlegal
    rfl
  case rxbuf.wr => exact hlegal.elim

theorem wf_decode {r : Record} (h : r.fmt ∈ [Format.frame, .wire, .hdr, .cmd, .evt, .bus, .txv, .rxv]) :
    (decode r).wf = true := by
  cases r with
  | frame bytes => exact wf_decode_frame bytes
  | wire b after => exact wf_decode_wire b after
  | cmd v => exact wf_decode_cmd v
  | bus a => exact wf_decode_bus a
  | hdr b | tick d a | reset | ackStrobe => rfl
  | txv v => rw [decode]; cases txvOp v <;> rfl
  | rxvP1 r e i => rw [decode]; cases rxvOp1 r e <;> rfl
  | rxvP3 v => rw [decode]; cases rxvOp3 v <;> rfl
  | rxo v q b | func c => simp [Record.fmt] at h

/-! The bytes between two flags that are no encoding of a payload (R116). -/

/-- Where unescaping fails, the record answers `EscapeError`. -/
theorem exec_decode_frame_escapeError {raw : List Byte} (hraw : flagByte ∉ raw)
    (herr : frUnescape raw = .err .escapeError) (s : State) :
    exec (decode (.frame (flagByte :: raw ++ [flagByte]))) s = .next (s.answer (.verdict (.err .escapeError))) := by
  rw [exec_decode_frame_of_ne fun p _ hp => ?_, frDecodeRaw_of_err hraw herr]
  rw [frUnescape_of_frEncode_eq hp] at herr
  cases herr

/-- Where fewer than four body bytes remain, the record answers `Truncated`: a payload has its CRC behind it. -/
theorem exec_decode_frame_short {raw body : List Byte} (hraw : flagByte ∉ raw) (hbody : frUnescape raw = .ok body)
    (hshort : body.length < 4) (s : State) :
    exec (decode (.frame (flagByte :: raw ++ [flagByte]))) s = .next (s.answer (.verdict (.err .truncated))) := by
  rw [exec_decode_frame_of_ne fun p _ hp => ?_, frDecodeRaw_of_ok hraw hbody]
  · have hlong : ¬ body.length > payloadLimit + 5 := by rw [payloadLimit]; omega
    rw [frCheck, if_neg hlong, if_pos hshort]
  · rw [frUnescape_of_frEncode_eq hp] at hbody
    obtain rfl := Verdict.ok.inj hbody
    rw [List.length_append, length_crc32le] at hshort
    omega

/-- The operation that a `TXV` vector decodes to is that of a row whose bits it matches (R112). -/
theorem decode_txv_row (v : BitVec 7) : ∃ row ∈ txvRows.map (fun row => (row.1, row.2.1, row.2.2.toInstr)),
    rowMatches row.1 row.2.1 (v.zeroExtend 8) ∧ decode (.txv v) = row.2.2 := by
  obtain ⟨row, ⟨hmem, hmatch, -⟩, hop⟩ := txvRows_onlyMatch v
  exact ⟨_, List.mem_map_of_mem hmem, hmatch, congrArg TxOp.toInstr hop.symm⟩

/-- Settles O60: row by row, by the lemma on each format's decoder. -/
theorem decodedIsWellFormed : Obligations.DecodedIsWellFormed := by
  refine ⟨fun r hr => wf_decode hr,
    -- CMD, HDR
    rfl, rfl, rfl, rfl, rfl, fun v hv => decode_cmd_reserved hv, fun _ => rfl,
    -- WIRE
    decode_wire_flag, fun b after hflag hesc => decode_wire_literal hflag hesc after,
    fun x s hx => ⟨decode_wire_pair hx, congrArg (exec · s) (decode_wire_pair hx)⟩,
    fun after hafter s => congrArg (exec · s) (decode_wire_dangling hafter),
    -- FRAME
    fun p hp => decode_frame_frEncode hp, fun bytes hne => decode_frame_of_ne_frEncode hne,
    fun raw s hraw herr => exec_decode_frame_escapeError hraw herr s,
    fun raw body s hraw hbody hshort => exec_decode_frame_short hraw hbody hshort s,
    -- EVT
    fun _ _ => rfl, rfl, rfl,
    -- BUS
    fun a => ?legal,
    fun off halign hle => decode_bus_regRd ((Reg.at?_isSome_iff off).mpr ⟨halign, hle⟩),
    fun v => ⟨rfl, rfl, rfl, rfl, rfl, rfl, rfl, rfl, rfl, rfl, fun off hoff => ?noRow⟩,
    fun _ _ => ⟨rfl, rfl, rfl⟩,
    -- TXV, RXV, RXO
    decode_txv_row, fun r e i => ?phaseP1, fun w => ?phaseP3, fun _ _ _ _ _ => ⟨rfl, rfl, rfl, rfl, rfl⟩⟩
  case legal =>
    cases hlegal : a.legal
    · exact .inr (decode_bus_of_not_legal hlegal)
    · exact .inl (legal_iff.mp hlegal)
  case noRow =>
    simp only [List.mem_cons, List.not_mem_nil, or_false] at hoff
    rcases hoff with rfl | rfl | rfl | rfl | rfl | rfl | rfl | rfl | rfl
    all_goals rfl
  case phaseP1 =>
    simp only [rowMatches]
    revert r e i
    decide
  case phaseP3 =>
    simp only [rowMatches]
    cases w with
    | opened i => revert i; decide
    | wasOpen e d i => revert e d i; decide

/-- Settles O3: the `CMD` table is the decoder's definition, the frame is the encoder's, and every access to a register
of another width than 4 is illegal. -/
theorem specWordsDecode : Obligations.SpecWordsDecode := by
  have hframe : frEncode [0x61] = [0x7E, 0x61, 0x43, 0xBE, 0xB7, 0xE8, 0x7E] := by decide +kernel
  refine ⟨fun v => rfl, ?_, rfl, rfl, rfl, rfl, rfl, rfl, rfl, rfl,
    fun v width hwidth => decode_bus_of_not_legal (legal_reg_width hwidth), rfl, rfl, rfl, rfl⟩
  rw [← hframe]
  exact decode_frame_frEncode (by decide)

/-! The serialisation of bytes (R104). -/

theorem length_bitsOf (bytes : List Byte) : (bitsOf bytes).length = 8 * bytes.length := by
  induction bytes with
  | nil => rfl
  | cons b bytes ih =>
    rw [bitsOf_cons, List.length_append, ih, List.length_cons, Nat.mul_succ, Nat.add_comm]
    rfl

theorem getElem?_byteBits (b : Byte) {i : Nat} (hi : i < 8) : (byteBits b)[i]? = some (b.getLsbD (7 - i)) := by
  interval_cases i <;> rfl

/-- Bit `8*j + i` of a serialisation is bit `7 - i` of byte `j`. -/
theorem getElem?_bitsOf {bytes : List Byte} {j i : Nat} {b : Byte} (hi : i < 8) (hb : bytes[j]? = some b) :
    (bitsOf bytes)[8 * j + i]? = some (b.getLsbD (7 - i)) := by
  induction bytes generalizing j with
  | nil => cases hb
  | cons c bytes ih =>
    have hlen : (byteBits c).length = 8 := rfl
    rw [bitsOf_cons]
    cases j with
    | zero =>
      obtain rfl := Option.some.inj hb
      rw [List.getElem?_append_left (by omega), Nat.mul_zero, Nat.zero_add, getElem?_byteBits c hi]
    | succ j =>
      rw [List.getElem?_append_right (by omega), hlen, show 8 * (j + 1) + i - 8 = 8 * j + i by omega]
      exact ih hb

theorem byteBits_byteOfBits : ∀ b7 b6 b5 b4 b3 b2 b1 b0 : Bool,
    byteBits (byteOfBits b7 b6 b5 b4 b3 b2 b1 b0) = [b7, b6, b5, b4, b3, b2, b1, b0] := by
  decide +kernel

/-- A bitstream is the serialisation of its whole bytes and fewer than eight bits more (41_frame_codec.md R158). -/
theorem exists_eq_bitsOf_bytesOf_append : ∀ bits : List Bool,
    ∃ tail : List Bool, tail.length < 8 ∧ bits = bitsOf (bytesOf bits) ++ tail
  | b7 :: b6 :: b5 :: b4 :: b3 :: b2 :: b1 :: b0 :: rest => by
    obtain ⟨tail, hlen, htail⟩ := exists_eq_bitsOf_bytesOf_append rest
    refine ⟨tail, hlen, ?_⟩
    rw [bytesOf, bitsOf_cons, byteBits_byteOfBits, List.append_assoc, ← htail]
    rfl
  | [] | [_] | [_, _] | [_, _, _] | [_, _, _, _] | [_, _, _, _, _] | [_, _, _, _, _, _] | [_, _, _, _, _, _, _] =>
    ⟨_, by simp, rfl⟩

/-- Settles O17: from the serialisation to the bytes by induction, and back by splitting off the whole bytes. -/
theorem bitSerialisation : Obligations.BitSerialisation := by
  refine ⟨fun bytes => ⟨length_bitsOf bytes, fun j i b hi hb => getElem?_bitsOf hi hb⟩, fun bits => ?_⟩
  obtain ⟨tail, htail, hbits⟩ := exists_eq_bitsOf_bytesOf_append bits
  have hlen : bits.length = 8 * (bytesOf bits).length + tail.length := by
    rw [← length_bitsOf, ← List.length_append, ← hbits]
  refine ⟨by omega, fun j hj => ?_⟩
  have hbyte : j < (bytesOf bits).length := by omega
  refine ⟨(bytesOf bits)[j], List.getElem?_eq_getElem hbyte, fun i hi => ?_⟩
  calc bits[8 * j + i]? = (bitsOf (bytesOf bits) ++ tail)[8 * j + i]? := congrArg (·[8 * j + i]?) hbits
    _ = (bitsOf (bytesOf bits))[8 * j + i]? := List.getElem?_append_left (by rw [length_bitsOf]; omega)
    _ = some ((bytesOf bits)[j].getLsbD (7 - i)) := getElem?_bitsOf hi (List.getElem?_eq_getElem hbyte)

/-! The rows that write no state, and the rejection of a reserved command. -/

/-- Settles O21: each row is `answer` of its result by definition. -/
theorem codecRowsComplete : Obligations.CodecRowsComplete := fun _ =>
  ⟨rfl, fun _ => rfl, fun _ => rfl, fun _ => rfl, fun _ => rfl, fun _ _ _ => rfl, fun _ _ => rfl, fun _ _ _ _ _ => rfl,
    fun _ _ _ _ _ => rfl, fun _ _ => rfl, fun _ => rfl, fun _ => rfl, fun _ => rfl, fun _ => rfl, fun _ => rfl,
    fun _ _ => rfl, fun _ => rfl⟩

/-- A value of `CMD` above 4 is rejected (R109, 44_host_interface.md R240). -/
theorem State.doCommand_reserved {v : Word} (h : 4 < v.toNat) (s : State) :
    s.doCommand v = s.raise (.cmdReject .unknownCmd) := by
  simp only [State.doCommand, ne_command_of_gt h, if_false]

/-- Settles O30: `NOP` is a write of 0 to `CMD`, and a reserved value is rejected. -/
theorem nopAndReservedCommands : Obligations.NopAndReservedCommands := by
  refine fun s => ⟨rfl, fun v hv => ?_⟩
  rw [exec_of_commandOf (i := .cmdReserved v) rfl, State.doCommand_reserved hv]
  rfl

end Sys2Proof.Machine
end

section
/-! PROOFS. The bit timing codec (40_bit_timing.md): the schedule, the nearest slot, the placement of pulses in both modes
and `ASSEMBLE`. A train whose stamps, or whose gaps, stay within half a slot of their nominal places is placed at the
indices of its 1 bits, so that both robustness and the round trip follow from what `ASSEMBLE` makes of these. -/

namespace Sys2Proof.Machine

/-! The nearest slot (R133) and the schedule (R131). -/

theorem btSlot_eq_ediv {T : Nat} (hT : 1 ≤ T) (d : Int) : btSlot d T = (2 * d + T - 1) / (2 * T) :=
  if_neg (Nat.one_le_iff_ne_zero.mp hT)

/-- The slot of a time difference is the one whose half-open interval holds it. -/
theorem btSlot_eq_iff {T : Nat} (hT : 1 ≤ T) (d k : Int) :
    btSlot d T = k ↔ -(T : Int) < 2 * (d - k * T) ∧ 2 * (d - k * T) ≤ T := by
  have hpos : (0 : Int) < 2 * T := by omega
  rw [btSlot_eq_ediv hT, Int.ediv_eq_iff_of_pos hpos]
  have hexpand : k * (2 * T) = 2 * (k * T) := by ring
  omega

/-- A whole number of slots stands in its slot with no residual. -/
theorem btSlot_mul {T : Nat} (hT : 1 ≤ T) (k : Int) : btSlot (k * T) T = k := by
  rw [btSlot_eq_iff hT, Int.sub_self]
  omega

/-- A time difference that is not negative lies in no slot before the first. -/
theorem btSlot_nonneg {T : Nat} (hT : 1 ≤ T) {d : Int} (hd : 0 ≤ d) : 0 ≤ btSlot d T := by
  rw [btSlot_eq_ediv hT]
  exact Int.ediv_nonneg (by omega) (by omega)

theorem btResidual_mul {T : Nat} (hT : 1 ≤ T) (k : Int) : btResidual (k * T) T = 0 := by
  rw [btResidual, btSlot_mul hT, Int.sub_self]

/-- Settles O8. -/
theorem slotIsNearest : Obligations.SlotIsNearest :=
  fun d _ hT => ⟨btSlot_eq_ediv hT d, btSlot_eq_iff hT d, rfl⟩

theorem length_btEncode (bits : List Bool) (t0 T : Nat) : (btEncode bits t0 T).length = bits.length := by
  induction bits generalizing t0 with
  | nil => rfl
  | cons b bits ih => rw [btEncode, List.length_cons, List.length_cons, ih]

theorem getElem?_btEncode {bits : List Bool} {i : Nat} {b : Bool} (h : bits[i]? = some b) (t0 T : Nat) :
    (btEncode bits t0 T)[i]? = some (t0 + i * T, b) := by
  induction bits generalizing t0 i with
  | nil => cases h
  | cons c bits ih =>
    cases i with
    | zero =>
      obtain rfl := Option.some.inj h
      rw [Nat.zero_mul]
      rfl
    | succ i =>
      rw [btEncode, List.getElem?_cons_succ, ih h, Nat.succ_mul, Nat.add_assoc, Nat.add_comm T]

/-- Settles O9. -/
theorem scheduleOfBits : Obligations.ScheduleOfBits :=
  fun bits t0 T => ⟨length_btEncode bits t0 T, fun _ _ h => getElem?_btEncode h t0 T⟩

/-! `ASSEMBLE` (R137). -/

/-- The overflow mark is set exactly where some slot lies beyond `W - 2`. -/
theorem assemble_ovf (ks : List Nat) (W : Nat) : (assemble ks W).2 = true ↔ ∃ k ∈ ks, W < k + 2 := by
  rw [assemble]
  split <;> simp

theorem assemble_of_none_kept {ks : List Nat} {W : Nat} (h : ∀ k ∈ ks, W < k + 2) : (assemble ks W).1 = [] := by
  have hkept : ks.filter (fun k => decide (k + 2 ≤ W)) = [] := by simpa using h
  simp only [assemble, hkept]

/-- The bitstream up to the largest kept slot and one slot more. -/
theorem assemble_of_largest_kept {ks : List Nat} {m W : Nat} (hm : m ∈ ks) (hW : m + 2 ≤ W)
    (hmax : ∀ k ∈ ks, k + 2 ≤ W → k ≤ m) :
    (assemble ks W).1 = (List.range (m + 2)).map fun j => decide (j ∈ ks ∧ j + 2 ≤ W) := by
  have hkept (j : Nat) : j ∈ ks.filter (fun k => decide (k + 2 ≤ W)) ↔ j ∈ ks ∧ j + 2 ≤ W := by
    rw [List.mem_filter, decide_eq_true_eq]
  simp only [assemble]
  cases hcons : ks.filter (fun k => decide (k + 2 ≤ W)) with
  | nil => exact absurd (hcons ▸ (hkept m).mpr ⟨hm, hW⟩) List.not_mem_nil
  | cons k rest =>
    obtain ⟨hle, hmem⟩ := foldl_max_spec rest k
    rw [← hcons] at hle hmem
    obtain ⟨hlargest, hfits⟩ := (hkept _).mp hmem
    have hfold : rest.foldl max k = m :=
      Nat.le_antisymm (hmax _ hlargest hfits) (hle m ((hkept m).mpr ⟨hm, hW⟩))
    simp only [hfold]
    refine List.map_congr_left fun j _ => ?_
    rw [Bool.eq_iff_iff, List.contains_iff_mem, ← hcons, hkept, decide_eq_true_eq]

/-- Either no slot is kept, or there is a largest kept one. -/
theorem kept_slots_cases (ks : List Nat) (W : Nat) :
    (∀ k ∈ ks, W < k + 2) ∨ ∃ m ∈ ks, m + 2 ≤ W ∧ ∀ k ∈ ks, k + 2 ≤ W → k ≤ m := by
  cases hcons : ks.filter (fun k => decide (k + 2 ≤ W)) with
  | nil => exact .inl (by simpa using hcons)
  | cons k rest =>
    obtain ⟨hle, hmem⟩ := foldl_max_spec rest k
    rw [← hcons] at hle hmem
    simp only [List.mem_filter, decide_eq_true_eq] at hle hmem
    exact .inr ⟨_, hmem.1, hmem.2, fun j hj hW => hle j ⟨hj, hW⟩⟩

theorem length_assemble_le (ks : List Nat) (W : Nat) : (assemble ks W).1.length ≤ W := by
  rcases kept_slots_cases ks W with hnone | ⟨m, hm, hW, hmax⟩
  · rw [assemble_of_none_kept hnone]
    exact Nat.zero_le W
  · rw [assemble_of_largest_kept hm hW hmax, List.length_map, List.length_range]
    exact hW

/-- Settles O11. -/
theorem assembleBits : Obligations.AssembleBits := by
  refine fun ks W => ⟨assemble_ovf ks W, assemble_of_none_kept, fun m hm hW hmax => ?_, length_assemble_le ks W⟩
  rw [assemble_of_largest_kept hm hW hmax]
  refine ⟨by rw [List.length_map, List.length_range], fun j hj => ?_⟩
  rw [List.getElem?_map, List.getElem?_range hj, Option.map_some]

/-! The placement of pulses (R134, R135). -/

theorem strictlyRising_lt {ts : List Nat} (h : strictlyRising ts = true) {i t t' : Nat} (ht : ts[i]? = some t)
    (ht' : ts[i + 1]? = some t') : t < t' := by
  induction ts generalizing i with
  | nil => cases ht
  | cons u ts ih =>
    cases ts with
    | nil => cases ht'
    | cons v ts =>
      rw [strictlyRising, Bool.and_eq_true, decide_eq_true_eq] at h
      obtain ⟨huv, hrest⟩ := h
      cases i with
      | zero =>
        obtain rfl := Option.some.inj ht
        obtain rfl := Option.some.inj ht'
        exact huv
      | succ i => exact ih hrest ht ht'

theorem isAmbiguous_eq (T M : Nat) (r : Int) : isAmbiguous T M r = decide ((T : Int) - 2 * |r| ≤ 2 * M) := by
  rw [isAmbiguous, Int.natCast_natAbs]

/-- Of a decode, the bits and the overflow mark are `ASSEMBLE` of the slots. -/
theorem recover_assemble (placed : List (Nat × Int)) (T W M : Nat) :
    ((recover placed T W M).bits, (recover placed T W M).ovf) = assemble (placed.map Prod.fst) W := rfl

/-- Of a decode, the count is that of the residuals inside the margin. -/
theorem recover_namb (placed : List (Nat × Int)) (T W M : Nat) : (recover placed T W M).namb
    = ((placed.map Prod.snd).filter fun r => decide ((T : Int) - 2 * |r| ≤ 2 * M)).length := by
  simp only [recover, isAmbiguous_eq, List.filter_map, List.length_map, List.countP_eq_length_filter]
  rfl

@[simp] theorem length_placeFrom (T prev k : Nat) (ts : List Nat) : (placeFrom T prev k ts).length = ts.length := by
  induction ts generalizing prev k with
  | nil => rfl
  | cons t ts ih => rw [placeFrom, List.length_cons, ih, List.length_cons]

@[simp] theorem length_placeReanchor (ts : List Nat) (tref : Int) (T : Nat) :
    (placeReanchor ts tref T).length = ts.length := by
  cases ts with
  | nil => rfl
  | cons t ts => rw [placeReanchor, List.length_cons, length_placeFrom, List.length_cons]

/-- The pulses after one stamped `prev` in slot `k`: each is placed from the pulse before it. -/
theorem getElem?_placeFrom {T prev k : Nat} {ts : List Nat} {i t t' j : Nat} (ht : (prev :: ts)[i]? = some t)
    (ht' : ts[i]? = some t') (hj : (k :: (placeFrom T prev k ts).map Prod.fst)[i]? = some j) :
    (placeFrom T prev k ts)[i]?
      = some (j + (btSlot ((t' : Int) - t) T).toNat, btResidual ((t' : Int) - t) T) := by
  induction ts generalizing prev k i with
  | nil => cases ht'
  | cons u ts ih =>
    cases i with
    | zero =>
      obtain rfl := Option.some.inj ht
      obtain rfl := Option.some.inj ht'
      obtain rfl := Option.some.inj hj
      rfl
    | succ i => exact ih ht ht' hj

/-- Each pulse but the first is placed from the pulse before it. -/
theorem getElem?_placeReanchor {ts : List Nat} {tref : Int} {T i t t' j : Nat} (ht : ts[i]? = some t)
    (ht' : ts[i + 1]? = some t') (hj : ((placeReanchor ts tref T).map Prod.fst)[i]? = some j) :
    (placeReanchor ts tref T)[i + 1]?
      = some (j + (btSlot ((t' : Int) - t) T).toNat, btResidual ((t' : Int) - t) T) := by
  cases ts with
  | nil => cases ht
  | cons u ts => exact getElem?_placeFrom ht ht' hj

theorem placeFixed_slots (ts : List Nat) (tref : Int) (T : Nat) :
    (placeFixed ts tref T).map Prod.fst = ts.map fun t : Nat => (max 0 (btSlot ((t : Int) - tref) T)).toNat := by
  rw [placeFixed, List.map_map]
  refine List.map_congr_left fun t _ => ?_
  simp only [Function.comp_apply]
  omega

theorem placeFixed_residuals (ts : List Nat) (tref : Int) (T : Nat) :
    (placeFixed ts tref T).map Prod.snd = ts.map fun t : Nat => (t : Int) - tref - btSlot ((t : Int) - tref) T * T := by
  rw [placeFixed, List.map_map]
  rfl

/-- Settles O10: the slots and residuals of the re-anchoring mode are those of `placeReanchor`. -/
theorem slotPlacement : Obligations.SlotPlacement := by
  intro ts tref T W M hrising hT
  refine ⟨⟨?_, ?_⟩, (placeReanchor ts tref T).map Prod.fst, (placeReanchor ts tref T).map Prod.snd,
    by simp, by simp, fun t ht => ?_, fun i t t' k ht ht' hk => ⟨?_, ?_⟩, recover_assemble _ T W M,
    recover_namb _ T W M⟩
  · rw [btDecodeFixed, recover_assemble, placeFixed_slots]
  · rw [btDecodeFixed, recover_namb, placeFixed_residuals, List.filter_map, List.length_map]
    rfl
  · cases ts with
    | nil => cases ht
    | cons u ts =>
      obtain rfl := Option.some.inj ht
      refine ⟨congrArg some ?_, rfl⟩
      omega
  · have hlt := strictlyRising_lt hrising ht ht'
    exact btSlot_nonneg hT (by omega)
  · have hplace := getElem?_placeReanchor ht ht' hk
    simp only [List.getElem?_map, hplace, Option.map_some, btResidual, and_self]

/-! Robustness (R140): where the pulses of a jittered train are placed. -/

theorem toNat_btSlot_of_within {T : Nat} (hT : 1 ≤ T) {d : Int} {k : Nat}
    (h : -(T : Int) < 2 * (d - k * T) ∧ 2 * (d - k * T) ≤ T) : (btSlot d T).toNat = k := by
  rw [(btSlot_eq_iff hT d k).mpr h, Int.toNat_natCast]

/-- Stamps within half a slot of their nominal instants are placed at the 1 bits of the fixed grid. -/
theorem placeFixed_of_stampedInSlots {tref : Int} {T : Nat} {bits : List Bool} {ts : List Nat} (hT : 1 ≤ T)
    (h : stampedInSlots tref T bits ts) : (placeFixed ts tref T).map Prod.fst = oneIndices bits := by
  rw [stampedInSlots] at h
  generalize oneIndices bits = ks at h
  induction h with
  | nil => rfl
  | cons hwithin _ ih => exact congrArg₂ List.cons (toNat_btSlot_of_within hT hwithin) ih

/-- Gaps within half a slot of their nominal length advance from slot to slot. -/
theorem placeFrom_of_gaps {T : Nat} (hT : 1 ≤ T) {ks ts : List Nat} {k prev : Nat} (hrise : (k :: ks).Pairwise (· < ·))
    (hlen : ts.length = ks.length)
    (hgap : ∀ i j j' t t' : Nat, (k :: ks)[i]? = some j → ks[i]? = some j' → (prev :: ts)[i]? = some t →
      ts[i]? = some t' →
      -(T : Int) < 2 * ((t' : Int) - t - ((j' : Int) - j) * T) ∧ 2 * ((t' : Int) - t - ((j' : Int) - j) * T) ≤ T) :
    (placeFrom T prev k ts).map Prod.fst = ks := by
  induction ks generalizing ts k prev with
  | nil => rw [List.length_eq_zero_iff.mp hlen]; rfl
  | cons k' ks ih =>
    cases ts with
    | nil => cases hlen
    | cons t ts =>
      have hslot : btSlot ((t : Int) - prev) T = (k' : Int) - k :=
        (btSlot_eq_iff hT _ _).mpr (hgap 0 k k' prev t rfl rfl rfl rfl)
      have hadvance : k + (btSlot ((t : Int) - prev) T).toNat = k' := by
        have hlt := List.rel_of_pairwise_cons hrise List.mem_cons_self
        omega
      have hrest := ih hrise.of_cons (Nat.succ.inj hlen) fun i => hgap (i + 1)
      simp only [placeFrom, hadvance, List.map_cons, hrest]

/-- Where the first stamp and every gap are within half a slot, re-anchoring places the pulses at the 1 bits. -/
theorem placeReanchor_of_gapsInSlots {tref : Int} {T : Nat} {bits : List Bool} {ts : List Nat} (hT : 1 ≤ T)
    (h : gapsInSlots tref T bits ts) : (placeReanchor ts tref T).map Prod.fst = oneIndices bits := by
  obtain ⟨hlen, hfirst, hgap⟩ := h
  have hrise := pairwise_oneIndices bits
  generalize oneIndices bits = ks at *
  cases ks with
  | nil => rw [List.length_eq_zero_iff.mp hlen]; rfl
  | cons k ks =>
    cases ts with
    | nil => cases hlen
    | cons t ts =>
      have hslot := toNat_btSlot_of_within hT (hfirst k t rfl rfl)
      simp only [placeReanchor, List.map_cons, hslot, placeFrom_of_gaps hT hrise (Nat.succ.inj hlen) hgap]

/-- A train placed at the 1 bits gives back the bits up to the last 1 and one 0. -/
theorem recover_of_oneIndices {placed : List (Nat × Int)} {bits : List Bool} {p T W M : Nat} (hp : isLastOne bits p)
    (hW : p + 2 ≤ W) (h : placed.map Prod.fst = oneIndices bits) :
    (recover placed T W M).bits = bits.take (p + 1) ++ [false] ∧ (recover placed T W M).ovf = false := by
  have hassemble := recover_assemble placed T W M
  rw [h, assemble_oneIndices hp hW] at hassemble
  exact Prod.mk.inj hassemble

/-- Settles O13: in each mode the pulses are placed at the 1 bits. -/
theorem timingRobustness : Obligations.TimingRobustness := fun _ _ _ _ _ _ _ hp hT hW =>
  ⟨fun h => recover_of_oneIndices hp hW (placeFixed_of_stampedInSlots hT h),
    fun h => recover_of_oneIndices hp hW (placeReanchor_of_gapsInSlots hT h)⟩

/-! The round trip (R142): pulses at their nominal instants have no residual. -/

theorem placeFixed_pulseTimes {T : Nat} (hT : 1 ≤ T) (bits : List Bool) (t0 : Nat) :
    placeFixed (pulseTimes bits t0 T) t0 T = (oneIndices bits).map fun k => (k, 0) := by
  rw [pulseTimes_eq, placeFixed, List.map_map]
  refine List.map_congr_left fun k _ => ?_
  have hd : ((t0 + k * T : Nat) : Int) - t0 = (k : Int) * T := by push_cast; ring
  rw [Function.comp_apply, hd, btSlot_mul hT, btResidual_mul hT, Int.toNat_natCast]

theorem placeFrom_nominal {T : Nat} (hT : 1 ≤ T) (t0 : Nat) {ks : List Nat} {k : Nat}
    (hrise : (k :: ks).Pairwise (· < ·)) :
    placeFrom T (t0 + k * T) k (ks.map fun j => t0 + j * T) = ks.map fun j => (j, 0) := by
  induction ks generalizing k with
  | nil => rfl
  | cons k' ks ih =>
    have hd : ((t0 + k' * T : Nat) : Int) - ((t0 + k * T : Nat) : Int) = ((k' : Int) - k) * T := by push_cast; ring
    have hadvance : k + ((k' : Int) - k).toNat = k' := by
      have hlt := List.rel_of_pairwise_cons hrise List.mem_cons_self
      omega
    simp only [List.map_cons, placeFrom, hd, btSlot_mul hT, btResidual_mul hT, hadvance, ih hrise.of_cons]

theorem placeReanchor_pulseTimes {T : Nat} (hT : 1 ≤ T) (bits : List Bool) (t0 : Nat) :
    placeReanchor (pulseTimes bits t0 T) t0 T = (oneIndices bits).map fun k => (k, 0) := by
  have hrise := pairwise_oneIndices bits
  rw [pulseTimes_eq]
  cases hones : oneIndices bits with
  | nil => rfl
  | cons k ks =>
    rw [hones] at hrise
    have hd : ((t0 + k * T : Nat) : Int) - t0 = (k : Int) * T := by push_cast; ring
    simp only [List.map_cons, placeReanchor, hd, btSlot_mul hT, btResidual_mul hT, Int.toNat_natCast,
      placeFrom_nominal hT t0 hrise]

/-- A pulse with no residual is ambiguous only where the margin is half a slot or more (R136). -/
theorem recover_namb_of_no_residual {T M : Nat} (hM : 2 * M < T) (ks : List Nat) (W : Nat) :
    (recover (ks.map fun k => (k, 0)) T W M).namb = 0 := by
  have hclear : ¬ (T : Int) - 2 * |(0 : Int)| ≤ 2 * M := by rw [abs_zero]; omega
  rw [recover_namb, List.map_map, List.length_eq_zero_iff, List.filter_eq_nil_iff]
  intro r hr
  obtain ⟨k, -, rfl⟩ := List.mem_map.mp hr
  exact fun h => hclear (of_decide_eq_true h)

/-- The schedule of a bit sequence decodes, from its own start, to the bits up to the last 1 and one 0. -/
theorem btDecode_pulseTimes {bits : List Bool} {p T W M : Nat} (hp : isLastOne bits p) (hT : 1 ≤ T) (hW : p + 2 ≤ W)
    (hM : 2 * M < T) (re : Bool) (t0 : Nat) :
    btDecode re (pulseTimes bits t0 T) t0 T W M = { bits := bits.take (p + 1) ++ [false], namb := 0, ovf := false } := by
  have hdecode : btDecode re (pulseTimes bits t0 T) t0 T W M
      = recover ((oneIndices bits).map fun k => (k, 0)) T W M := by
    cases re with
    | false => exact congrArg (recover · T W M) (placeFixed_pulseTimes hT bits t0)
    | true => exact congrArg (recover · T W M) (placeReanchor_pulseTimes hT bits t0)
  have hslots : ((oneIndices bits).map fun k => (k, (0 : Int))).map Prod.fst = oneIndices bits := by
    simp [List.map_map, Function.comp_def]
  obtain ⟨hbits, hovf⟩ := recover_of_oneIndices (T := T) (M := M) hp hW hslots
  rw [hdecode, ← hbits, ← hovf, ← recover_namb_of_no_residual hM (oneIndices bits) W]

/-- Where a sequence begins `01`, its first pulse stands one slot after the start (R138). -/
theorem head?_pulseTimes_of_01 (rest : List Bool) (t0 T : Nat) :
    (pulseTimes (false :: true :: rest) t0 T).head? = some (t0 + T) := rfl

/-- A sequence that ends in `10` is its bits up to the last 1 and one 0. -/
theorem isLastOne_append_10 (bits : List Bool) : isLastOne (bits ++ [true, false]) bits.length := by
  refine ⟨by rw [List.getElem?_append_right (Nat.le_refl _), Nat.sub_self]; rfl, fun j hj => ?_⟩
  rw [List.getElem?_append_right hj.le]
  obtain ⟨i, hi⟩ : ∃ i, j - bits.length = i + 1 := ⟨j - bits.length - 1, by omega⟩
  rw [hi]
  cases i <;> simp

theorem take_append_10 (bits : List Bool) :
    (bits ++ [true, false]).take (bits.length + 1) ++ [false] = bits ++ [true, false] := by
  rw [List.take_length_add_append, List.append_assoc]
  rfl

/-- A Raw Frame ends in the bits `10` of its closing FLAG (30_encoding.md R101). -/
theorem bitsOf_frEncode_ends_10 (payload : List Byte) : ∃ bits, bitsOf (frEncode payload) = bits ++ [true, false] := by
  refine ⟨bitsOf ([flagByte] ++ frEscape (payload ++ crc32le payload)) ++ [false, true, true, true, true, true], ?_⟩
  rw [frEncode, bitsOf_append, List.append_assoc]
  rfl

/-- Settles O12: the reference is the start of the schedule in every case, and a Raw Frame ends in `10`. -/
theorem encodeDecodeInverse : Obligations.EncodeDecodeInverse := by
  constructor
  · intro bits p t0 T W M tref re hp hT hW hM href
    have htref : tref = t0 := by
      rcases href with h | ⟨⟨rest, rfl⟩, f, hf, htref⟩
      · exact h
      · obtain rfl := Option.some.inj ((head?_pulseTimes_of_01 rest t0 T).symm.trans hf)
        omega
    rw [htref]
    exact btDecode_pulseTimes hp hT hW hM re t0
  · intro payload t0 T W M re hT hM hW
    obtain ⟨bits, hbits⟩ := bitsOf_frEncode_ends_10 payload
    rw [hbits] at hW ⊢
    rw [List.length_append] at hW
    rw [btDecode_pulseTimes (isLastOne_append_10 bits) hT hW hM, take_append_10]

end Sys2Proof.Machine
end

section
/-! PROOFS. The pulses of a transmission (40_bit_timing.md R131, 42_arq_sender.md R183, R190, R191). While it lasts, the next
bit is the first whose slot has not begun before the present tick (`duringAttempt`); each tick short of the last bit's slot
keeps this and drives the bit that is due, and the tick of the last bit ends the transmission. -/

namespace Sys2Proof.Machine

/-- Bit `i` of a frame is bit `i` of its serialisation (10_state.md R47, 30_encoding.md R104). -/
theorem State.frameBit_eq {s : State} {i : Nat} (hi : i < 8 * s.txFrame.length) :
    s.frameBit i = (bitsOf s.txFrame)[i]?.getD false := by
  have hbyte : s.txFrame[i / 8]? = some s.txFrame[i / 8] := List.getElem?_eq_getElem (by omega)
  have hbit := getElem?_bitsOf (i := i % 8) (Nat.mod_lt _ (by decide)) hbyte
  rw [Nat.div_add_mod] at hbit
  rw [hbit]
  simp only [State.frameBit, hbyte, Option.getD_some]

/-- What `data_out` is in the tick `j` ticks after the start of a transmission: a pulse for each 1 bit of the frame, in
the first tick of its slot. -/
def State.pulseAt (s : State) (j : Nat) : Bool :=
  decide (j % s.cfgTslot.toNat = 0) && ((bitsOf s.txFrame)[j / s.cfgTslot.toNat]?.getD false)

/-- No bit is due between the starts of two slots. -/
theorem State.pulseAt_of_between {s : State} {i j : Nat} (hlow : j < i * s.cfgTslot.toNat)
    (hhigh : i * s.cfgTslot.toNat < j + s.cfgTslot.toNat) : s.pulseAt j = false := by
  have hmod : j % s.cfgTslot.toNat ≠ 0 := by
    intro h
    obtain ⟨c, hc⟩ := Nat.dvd_of_mod_eq_zero h
    rw [Nat.mul_comm] at hc
    have hci : c < i := Nat.lt_of_mul_lt_mul_right (hc ▸ hlow)
    have hle : (c + 1) * s.cfgTslot.toNat ≤ i * s.cfgTslot.toNat := Nat.mul_le_mul_right _ hci
    rw [Nat.succ_mul] at hle
    omega
  simp [State.pulseAt, hmod]

/-- At the start of slot `i` bit `i` is due. -/
theorem State.pulseAt_mul {s : State} {i : Nat} (hT : 1 ≤ s.cfgTslot.toNat) (hi : i < 8 * s.txFrame.length) :
    s.pulseAt (i * s.cfgTslot.toNat) = s.frameBit i := by
  rw [State.pulseAt, Nat.mul_mod_left, Nat.mul_div_cancel _ hT, State.frameBit_eq hi]
  simp

/-- `t` is the state `j` ticks into the transmission that began at `s`: the next bit is the first whose slot has not begun
before the present tick. -/
structure duringAttempt (s : State) (j : Nat) (t : State) : Prop where
  sending : t.txState = .sending
  now : t.now = s.now + j
  start : t.txT0 = s.now
  frame : t.txFrame = s.txFrame
  build : t.build = s.build
  config : t.cfgTslot = s.cfgTslot ∧ t.cfgTidle = s.cfgTidle ∧ t.cfgTack = s.cfgTack
  next_bit : j ≤ t.txIdx * s.cfgTslot.toNat ∧ t.txIdx * s.cfgTslot.toNat < j + s.cfgTslot.toNat

theorem duringAttempt.timeOk {s t : State} {j n : Nat} (h : duringAttempt s j t) (hj : j ≤ n) (htime : s.timeOkFor n) :
    t.timeOk = true := by
  obtain ⟨hslot, hidle, hack⟩ := h.config
  rw [State.timeOkFor] at htime
  rw [State.timeOk_def, decide_eq_true_eq]
  simp only [State.tack, State.tidle, State.tslot] at htime ⊢
  rw [h.now, h.build, hslot, hidle, hack]
  omega

theorem duringAttempt.due_iff {s t : State} {j : Nat} (h : duringAttempt s j t) :
    t.due = true ↔ j = t.txIdx * s.cfgTslot.toNat := by
  rw [State.due_iff, h.now, h.start, h.config.1]
  exact Nat.add_left_cancel_iff

/-- The bit that is next is one of the frame's, up to the start of the last bit's slot. -/
theorem duringAttempt.txIdx_lt {s t : State} {j n : Nat} (h : duringAttempt s j t) (hn : 1 ≤ n)
    (hj : j ≤ (n - 1) * s.cfgTslot.toNat) : t.txIdx < n := by
  have hsum : (n - 1) * s.cfgTslot.toNat + s.cfgTslot.toNat = n * s.cfgTslot.toNat := by
    rw [← Nat.succ_mul, Nat.succ_eq_add_one, Nat.sub_add_cancel hn]
  have hlow := h.next_bit.2
  exact Nat.lt_of_mul_lt_mul_right (a := s.cfgTslot.toNat) (by omega)

theorem duringAttempt.frameBit {s t : State} {j : Nat} (h : duringAttempt s j t) (i : Nat) :
    t.frameBit i = s.frameBit i := by
  rw [State.frameBit, State.frameBit, h.frame]

/-- The phases before P4 leave the transmission where it is. -/
theorem duringAttempt.beforeTx {s t : State} {j : Nat} (h : duringAttempt s j t) (d a : Bool) :
    duringAttempt s j (t.beforeTx d a) ∧ (t.beforeTx d a).dataOut = false := by
  obtain ⟨hnow, hbuild, hst, hidx, ht0, hframe, -, -, -, -, -, hslot, hack, hidle, -, hdata, -⟩ := t.beforeTx_spec d a
  obtain ⟨hslot', hidle', hack'⟩ := h.config
  refine ⟨⟨hst.trans h.sending, hnow.trans h.now, ht0.trans h.start, hframe.trans h.frame, hbuild.trans h.build,
    ⟨hslot.trans hslot', hidle.trans hidle', hack.trans hack'⟩, ?_⟩, hdata⟩
  rw [hidx]
  exact h.next_bit

/-- Between the starts of two slots phase P4 waits (R190). -/
theorem duringAttempt.phaseTx_between {s t : State} {j : Nat} (h : duringAttempt s j t)
    (hbetween : j < t.txIdx * s.cfgTslot.toNat) (hquiet : t.dataOut = false) :
    t.phaseTx.dataOut = s.pulseAt j ∧ duringAttempt s (j + 1) { t.phaseTx with now := t.now + 1 } := by
  have hdue : t.due = false := by
    rw [← Bool.not_eq_true, h.due_iff]
    exact Nat.ne_of_lt hbetween
  have hphase : t.phaseTx = t := by rw [State.phaseTx_eq, State.txOp_waitSlot h.sending hdue]
  have hhigh := h.next_bit.2
  rw [hphase]
  refine ⟨hquiet.trans (State.pulseAt_of_between hbetween hhigh).symm, { h with now := ?_, next_bit := ?_ }⟩
  · exact congrArg (· + 1) h.now
  · exact ⟨hbetween, hhigh.trans (by omega)⟩

/-- At the start of its slot a bit that is not the last is driven, and the next one is due one slot later (R183). -/
theorem duringAttempt.phaseTx_emit {s t : State} {j : Nat} (h : duringAttempt s j t) (hT : 1 ≤ s.cfgTslot.toNat)
    (hdue : j = t.txIdx * s.cfgTslot.toNat) (hlast : t.txIdx + 1 < 8 * s.txFrame.length) :
    t.phaseTx.dataOut = s.pulseAt j ∧ duringAttempt s (j + 1) { t.phaseTx with now := t.now + 1 } := by
  have hnotLast : t.lastBit = false := by
    rw [← Bool.not_eq_true, State.lastBit_iff, h.frame]
    exact Nat.ne_of_lt hlast
  have hphase : t.phaseTx = t.doEmit := by
    rw [State.phaseTx_eq, State.txOp_emit h.sending (h.due_iff.mpr hdue) hnotLast]
  have hnext : (t.txIdx + 1) * s.cfgTslot.toNat = j + s.cfgTslot.toNat := by rw [Nat.succ_mul, hdue]
  rw [hphase]
  refine ⟨?_, { h with now := congrArg (· + 1) h.now, next_bit := ?_ }⟩
  · rw [hdue, State.pulseAt_mul hT (by omega)]
    exact h.frameBit t.txIdx
  · show j + 1 ≤ (t.txIdx + 1) * s.cfgTslot.toNat ∧ (t.txIdx + 1) * s.cfgTslot.toNat < j + 1 + s.cfgTslot.toNat
    omega

/-- At the start of its slot the last bit is driven, and the transmission ends (R184). -/
theorem duringAttempt.phaseTx_emitLast {s t : State} {j : Nat} (h : duringAttempt s j t) (hT : 1 ≤ s.cfgTslot.toNat)
    (hdue : j = t.txIdx * s.cfgTslot.toNat) (hlast : t.txIdx + 1 = 8 * s.txFrame.length) :
    t.phaseTx.dataOut = s.pulseAt j ∧ t.phaseTx.txState = .waitingAck := by
  have hphase : t.phaseTx = t.doEmitLast := by
    rw [State.phaseTx_eq, State.txOp_emitLast h.sending (h.due_iff.mpr hdue)
      ((State.lastBit_iff t).mpr (h.frame ▸ hlast))]
  rw [hphase]
  refine ⟨?_, rfl⟩
  rw [hdue, State.pulseAt_mul hT (by omega)]
  exact h.frameBit t.txIdx

/-- Tick `j` of the transmission drives what is due in it, and ends the transmission exactly at the start of the last
bit's slot. -/
theorem duringAttempt.tick {s t : State} {j : Nat} (h : duringAttempt s j t) (hT : 1 ≤ s.cfgTslot.toNat)
    (hframe : 1 ≤ 8 * s.txFrame.length) (hj : j ≤ (8 * s.txFrame.length - 1) * s.cfgTslot.toNat)
    (htime : t.timeOk = true) (d a : Bool) :
    ∃ u, exec (.tick d a) t = .next u ∧ u.dataOut = s.pulseAt j ∧
      (j < (8 * s.txFrame.length - 1) * s.cfgTslot.toNat → duringAttempt s (j + 1) u) ∧
      (j = (8 * s.txFrame.length - 1) * s.cfgTslot.toNat → u.txState = .waitingAck) := by
  obtain ⟨hb, hquiet⟩ := h.beforeTx d a
  have hnow : t.now = (t.beforeTx d a).now := h.now.trans hb.now.symm
  refine ⟨_, execTick_ok htime d a, ?_⟩
  rw [hnow]
  have hidx := hb.txIdx_lt hframe hj
  rcases Nat.lt_or_eq_of_le hb.next_bit.1 with hbetween | hdue
  · obtain ⟨hdata, hnext⟩ := hb.phaseTx_between hbetween hquiet
    refine ⟨hdata, fun _ => hnext, fun hend => absurd hbetween (Nat.not_lt.mpr ?_)⟩
    rw [hend]
    exact Nat.mul_le_mul_right _ (by omega)
  · rcases Nat.lt_or_eq_of_le (Nat.succ_le_of_lt hidx) with hmore | hlast
    · obtain ⟨hdata, hnext⟩ := hb.phaseTx_emit hT hdue hmore
      refine ⟨hdata, fun _ => hnext, fun hend => ?_⟩
      have heq := Nat.eq_of_mul_eq_mul_right hT (hdue.symm.trans hend)
      omega
    · obtain ⟨hdata, hend⟩ := hb.phaseTx_emitLast hT hdue hlast
      refine ⟨hdata, fun hmore => absurd hdue (Nat.ne_of_lt ?_), fun _ => hend⟩
      rwa [← hlast] at hmore

/-- Ticks that complete, and one more. -/
theorem runTicks_concat {l : List (Bool × Bool)} {x : Bool × Bool} {s t u : State} (hrun : runTicks l s = some t)
    (hu : exec (.tick x.1 x.2) t = .next u) : runTicks (l ++ [x]) s = some u := by
  rw [runTicks_append, hrun]
  simp only [Option.bind_some, runTicks, hu]

/-- A transmission that lasts for `l` is `l` ticks in after them. -/
theorem duringAttempt.runTicks {s : State} (h : duringAttempt s 0 s) (hT : 1 ≤ s.cfgTslot.toNat)
    (hframe : 1 ≤ 8 * s.txFrame.length) {n : Nat} (htime : s.timeOkFor n) (l : List (Bool × Bool))
    (hl : l.length ≤ (8 * s.txFrame.length - 1) * s.cfgTslot.toNat) (hn : l.length ≤ n) :
    ∃ t, runTicks l s = some t ∧ duringAttempt s l.length t := by
  induction l using List.reverseRecOn with
  | nil => exact ⟨s, rfl, h⟩
  | append_singleton l x ih =>
    rw [List.length_append, List.length_singleton] at hl hn
    obtain ⟨t, hrun, ht⟩ := ih (by omega) (by omega)
    obtain ⟨u, hu, -, hnext, -⟩ := ht.tick hT hframe (by omega) (ht.timeOk (by omega) htime) x.1 x.2
    exact ⟨u, runTicks_concat hrun hu, by rw [List.length_append]; exact hnext hl⟩

/-- A transmission begins at its first bit (R181, R188). -/
theorem duringAttempt.init {s : State} (hT : 1 ≤ s.cfgTslot.toNat) (hst : s.txState = .sending) (hidx : s.txIdx = 0)
    (ht0 : s.txT0 = s.now) : duringAttempt s 0 s :=
  ⟨hst, rfl, ht0, rfl, rfl, ⟨rfl, rfl, rfl⟩, by rw [hidx, Nat.zero_mul]; omega⟩

/-- Settles O38, by induction over the ticks before the last. -/
theorem transmissionPulses : Obligations.TransmissionPulses := by
  intro s k l hinv hst hidx ht0 hk hl htime
  have hT : 1 ≤ s.cfgTslot.toNat := ((State.cfgOk_iff s).mp (hinv.active_config (.inl hst)).1).1
  have hframe : 1 ≤ 8 * s.txFrame.length := le_trans (by decide) (hinv.frame_size (.inl hst)).1
  obtain ⟨l, x, rfl⟩ : ∃ l' x, l = l' ++ [x] :=
    ⟨l.dropLast, l.getLast (by rintro rfl; cases hl), (List.dropLast_append_getLast _).symm⟩
  rw [List.length_append, List.length_singleton] at hl htime
  obtain rfl : l.length = k := Nat.succ.inj hl
  obtain ⟨t, hrun, ht⟩ := (duringAttempt.init hT hst hidx ht0).runTicks hT hframe htime l hk (Nat.le_succ _)
  obtain ⟨u, hu, hdata, hnext, hend⟩ := ht.tick hT hframe hk (ht.timeOk (Nat.le_succ _) htime) x.1 x.2
  refine ⟨u, runTicks_concat hrun hu, hdata, ?_⟩
  rcases Nat.lt_or_eq_of_le hk with hlt | heq
  · simp [(hnext hlt).sending, hlt, Nat.ne_of_lt hlt]
  · simp [hend heq, heq]

end Sys2Proof.Machine
end

section
/-! PROOFS. The delivery of a frame (40_bit_timing.md R138, 43_arq_receiver.md R205 to R211): a window stamped by the
pulses of a frame, within the bounds of its mode, decodes to the frame's payload, and `RX.CLOSE` answers the outcome of
that verdict. -/

namespace Sys2Proof.Machine

/-- The bits of a Raw Frame whose payload fits decode to the payload (41_frame_codec.md R156 to R162). -/
theorem frDecode_bitsOf_frEncode {p : List Byte} {bodyMax : Nat} (h : p.length + 4 ≤ bodyMax) :
    frDecode (bitsOf (frEncode p)) bodyMax = .ok p := by
  have hframe : frEncode p = flagByte :: (frEscape (p ++ crc32le p) ++ [flagByte]) := rfl
  rw [hframe, frDecode_bitsOf_flag, frDecodeRaw_of_ok (flagByte_notMem_frEscape _) (frUnescape_frEscape _),
    frCheck_append_crc32le h]

/-- A Raw Frame whose payload is no longer than R6 allows fits in a window, with the slot that R137 appends (R6). -/
theorem length_bitsOf_frEncode_le {b : Build} (hb : b.wf) {p : List Byte} (hp : p.length ≤ b.frPayloadMax) :
    (bitsOf (frEncode p)).length ≤ b.rxWindowBits := by
  obtain ⟨-, -, hwindow, -⟩ := hb
  have hescape := length_frEscape_le (p ++ crc32le p)
  rw [List.length_append, length_crc32le] at hescape
  rw [length_bitsOf, length_frEncode]
  simp only [Build.frameMaxBits, Build.frameMaxBytes, Build.bodyMax, Build.frPayloadMax] at *
  omega

/-- A window stamped by the pulses of a frame that fits, within the bounds of its mode, recovers the frame's bits
(R140, R142). -/
theorem State.recovered_of_stamps {s : State} {p : List Byte} (hT : 1 ≤ s.cfgTslot.toNat)
    (hfits : (bitsOf (frEncode p)).length ≤ s.build.rxWindowBits)
    (hfixed : s.reanchor = false → stampedInSlots s.rxTref s.tslot (bitsOf (frEncode p)) s.rxTs)
    (hreanchor : s.reanchor = true → gapsInSlots s.rxTref s.tslot (bitsOf (frEncode p)) s.rxTs) :
    s.recovered.bits = bitsOf (frEncode p) := by
  obtain ⟨bits, hbits⟩ := bitsOf_frEncode_ends_10 p
  rw [hbits] at hfits hfixed hreanchor ⊢
  rw [List.length_append] at hfits
  obtain ⟨hrobust, hrobust'⟩ := timingRobustness (bits ++ [true, false]) s.rxTs bits.length s.tslot
    s.build.rxWindowBits s.cfgAmbig.toNat s.rxTref (isLastOne_append_10 bits) hT hfits
  rw [take_append_10] at hrobust hrobust'
  rw [State.recovered, btDecode]
  split
  next hmode => exact (hrobust' (hreanchor hmode)).1
  next hmode => exact (hrobust (hfixed (Bool.eq_false_of_not_eq_true hmode))).1

/-- A window past the idle threshold is closed with the outcome of its verdict; nothing that `RX.CLOSE` records before
the outcome bears on the session, the buffers, the mailbox or `ack_out`. -/
theorem exec_rxClose_of_verdict {s : State} {v : Verdict} (hst : s.rxState = .receiving)
    (hidle : s.rxTlast + s.cfgTidle.toNat < s.now) (hv : s.windowVerdict = v) :
    ∃ u : State, exec .rxClose s = .next { u.doOutcome v with rxTs := [], rxState := .idle } ∧
      sameBuffers s u ∧ u.hasFlag .rxMsg = s.hasFlag .rxMsg ∧ u.rxSession = s.rxSession ∧
      u.rxLastSeq = s.rxLastSeq ∧ u.ackOut = false := by
  have hclose : exec .rxClose s = .next s.quiet.doClose := by
    have hexp : s.quiet.idleExpired = true := (State.idleExpired_iff s.quiet).mpr hidle
    have hst' : s.quiet.rxState = .receiving := hst
    simp only [exec, execRxClose, State.phaseClose, hst', hexp, if_true]
  have hverdict : s.quiet.windowVerdict = v := hv
  obtain ⟨hbuffers, hmsg⟩ := s.quiet.recordOvf_recordAmbig_spec s.quiet.recovered.namb s.quiet.recovered.ovf
  refine ⟨_, by rw [hclose, State.doClose, hverdict], hbuffers, hmsg, ?_⟩
  obtain ⟨_, e1, -⟩ := s.quiet.recordAmbig_writes s.quiet.recovered.namb
  obtain ⟨_, e2, -⟩ := (s.quiet.recordAmbig s.quiet.recovered.namb).recordOvf_writes s.quiet.recovered.ovf
  rw [e2, e1]
  exact ⟨rfl, rfl, rfl⟩

/-- The message of a delivery, read at its addresses, and every other address (R211). -/
theorem State.doDeliver_read {s : State} (hmem : Memory.wf s.mem = true) (q : Bool) (m : List Byte) :
    (∀ (i : Nat) (b : Byte), m[i]? = some b → (s.doDeliver q m).mem.read (0x800 + i) = b) ∧
    (∀ x, x < 0x800 ∨ 0x800 + m.length ≤ x → (s.doDeliver q m).mem.read x = s.mem.read x) := by
  refine ⟨fun i b hb => ?_, fun x hx => Memory.read_writeBytes_other hx⟩
  have hread := read_rxbuf_writeBytes hmem m i
  rw [hb] at hread
  exact hread

/-- Settles O47: the window decodes to the frame's payload, and the outcome is that of R114. -/
theorem frameIsDelivered : Obligations.FrameIsDelivered := by
  intro s h m hb hmem hst hidle hT hm hfixed hreanchor
  have hbits := State.recovered_of_stamps hT
    (length_bitsOf_frEncode_le hb (p := h :: m) (Nat.succ_le_succ hm)) hfixed hreanchor
  have hverdict : s.windowVerdict = .ok (h :: m) := by
    rw [State.windowVerdict, hbits]
    exact frDecode_bitsOf_frEncode (Nat.add_le_add_right hm 5)
  obtain ⟨u, hexec, ⟨hsameMem, hsameLen⟩, hmsg, hsession, hseq, hack⟩ :=
    exec_rxClose_of_verdict hst hidle hverdict
  have hdupIff : u.isDuplicate (h.getLsbD 0) = true ↔ s.rxSession = true ∧ s.rxLastSeq = h.getLsbD 0 := by
    rw [State.isDuplicate_iff, hsession, hseq]
  refine ⟨_, hexec, rfl, rfl, fun hdup => ?_, fun hnew hpending => ?_, fun hnew hclear => ?_⟩
  · rw [State.doOutcome_of_duplicate (hdupIff.mpr hdup)]
    exact ⟨rfl, (State.hasFlag_setFlag .rxDup .rxDup _).trans (by simp), rfl, hsameMem, hsameLen⟩
  · rw [State.doOutcome_of_pending (Bool.eq_false_of_not_eq_true (mt hdupIff.mp hnew)) (hmsg.trans hpending)]
    exact ⟨rfl, (State.hasFlag_setFlag .rxErr .rxErr _).trans (by simp), hack, hsameMem, hsameLen, hsession, hseq⟩
  · rw [State.doOutcome_of_new (Bool.eq_false_of_not_eq_true (mt hdupIff.mp hnew)) (hmsg.trans hclear)]
    obtain ⟨hread, hother⟩ := State.doDeliver_read (hsameMem ▸ hmem) (h.getLsbD 0) m
    have hlen : (BitVec.ofNat 32 m.length).toNat = m.length := by
      obtain ⟨-, hmax, -, -⟩ := hb
      rw [BitVec.toNat_ofNat]
      omega
    exact ⟨rfl, (State.hasFlag_setFlag .rxMsg .rxMsg _).trans (by simp), rfl, hlen, rfl, rfl, hread,
      fun x hx => (hother x hx).trans (congrArg (Memory.read · x) hsameMem)⟩

end Sys2Proof.Machine
end

section
/-! PROOFS. The frame codec (41_frame_codec.md) and the decode attempt that uses it (43_arq_receiver.md R205). The search for
FLAG finds the least offset at which one opens (`opensAt`), each step of the decoder has its equation, and the verdicts on
an encoded frame and on a damaged one follow from what the checks say of its body. -/

namespace Sys2Proof.Machine

/-! Escaping (R152, R155, R159). -/

theorem frEscape_eq_flatMap (body : List Byte) : frEscape body
    = body.flatMap (fun b => if b = flagByte ∨ b = escByte then [escByte, b ^^^ maskByte] else [b]) := by
  induction body with
  | nil => rfl
  | cons b body ih =>
    rw [frEscape, List.flatMap_cons, ← ih]
    split <;> rfl

/-- Settles O15: `frEscape` by induction on the bytes, `frUnescape` by its two equations. -/
theorem escapingIsReversed : Obligations.EscapingIsReversed := by
  refine ⟨fun B => ⟨frEscape_eq_flatMap B, flagByte_notMem_frEscape B, length_le_frEscape B, length_frEscape_le B,
    frUnescape_frEscape B⟩, rfl, rfl, fun c rest body hbody => ?_, fun b rest body hb hbody => ?_,
    fun c rest e herr => ?_, fun b rest e hb herr => ?_⟩
  · exact (frUnescape_pair c rest).trans (congrArg (pushByte _) hbody)
  · exact (frUnescape_literal hb rest).trans (congrArg (pushByte b) hbody)
  · exact (frUnescape_pair c rest).trans (congrArg (pushByte _) herr)
  · exact (frUnescape_literal hb rest).trans (congrArg (pushByte b) herr)

/-! The frame (R153, R154). -/

theorem length_frEncode_bounds (p : List Byte) :
    p.length + 6 ≤ (frEncode p).length ∧ (frEncode p).length ≤ 2 * p.length + 10 := by
  have hge := length_le_frEscape (p ++ crc32le p)
  have hle := length_frEscape_le (p ++ crc32le p)
  rw [List.length_append, length_crc32le] at hge hle
  rw [length_frEncode]
  omega

theorem bitsOf_frEncode (p : List Byte) :
    bitsOf (frEncode p) = flagBits ++ bitsOf (frEscape (p ++ crc32le p) ++ [flagByte]) := rfl

/-- Settles O16: by the length and the bytes of the escaped body between the two flags. -/
theorem encodedFrameShape : Obligations.EncodedFrameShape := by
  intro p
  obtain ⟨hge, hle⟩ := length_frEncode_bounds p
  refine ⟨hge, hle, ⟨frEscape (p ++ crc32le p), rfl, flagByte_notMem_frEscape _⟩, ?_, ?_, fun b hp => ?_⟩
  · exact ⟨_, (bitsOf_frEncode p).symm⟩
  · rw [frEncode, bitsOf_append]
    exact List.suffix_append _ (bitsOf [flagByte])
  · rw [Build.frPayloadMax] at hp
    rw [Build.frameMaxBytes, Build.bodyMax]
    omega

/-! The opening FLAG (R157): the search finds the least offset at which one stands. -/

theorem afterFlag_of_opensAt {bits : List Bool} {o : Nat} (h : opensAt bits o) :
    afterFlag bits = some (bits.drop (o + 8)) := by
  induction bits generalizing o with
  | nil =>
    obtain ⟨hflag, -⟩ := h
    simp [flagBits] at hflag
  | cons b bits ih =>
    obtain ⟨hflag, hleast⟩ := h
    cases o with
    | zero => exact (afterFlag_cons b bits).1 hflag
    | succ o =>
      rw [(afterFlag_cons b bits).2 (hleast 0 o.succ_pos), Nat.succ_add]
      exact ih ⟨hflag, fun j hj => hleast (j + 1) (Nat.succ_lt_succ hj)⟩

theorem afterFlag_of_not_opensAt {bits : List Bool} (h : ∀ o, ¬ opensAt bits o) : afterFlag bits = none := by
  induction bits with
  | nil => rfl
  | cons b bits ih =>
    have hfront : ¬ flagBits <+: b :: bits := fun hflag => h 0 ⟨hflag, fun j hj => absurd hj j.not_lt_zero⟩
    rw [(afterFlag_cons b bits).2 hfront]
    refine ih fun o ⟨hflag, hleast⟩ => h (o + 1) ⟨hflag, fun j hj => ?_⟩
    cases j with
    | zero => exact hfront
    | succ j => exact hleast j (Nat.lt_of_succ_lt_succ hj)

/-- Bits behind do not move the opening FLAG: whatever opens before it would have opened without them. -/
theorem opensAt.append {bits : List Bool} {o : Nat} (h : opensAt bits o) (post : List Bool) :
    opensAt (bits ++ post) o := by
  obtain ⟨hflag, hleast⟩ := h
  have hroom : 8 ≤ bits.length - o := List.length_drop ▸ hflag.length_le
  have hdrop : ∀ j ≤ o, (bits ++ post).drop j = bits.drop j ++ post :=
    fun j hj => List.drop_append_of_le_length (by omega)
  refine ⟨hdrop o le_rfl ▸ hflag.trans (List.prefix_append _ post), fun j hj hopen => hleast j hj ?_⟩
  rw [hdrop j hj.le] at hopen
  refine List.prefix_of_prefix_length_le hopen (List.prefix_append _ post) ?_
  rw [List.length_drop]
  exact hroom.trans (by omega)

/-! The verdict, step by step (R158 to R162). -/

theorem frDecode_of_opensAt {bits : List Bool} {o : Nat} (h : opensAt bits o) (bodyMax : Nat) :
    frDecode bits bodyMax = frDecodeRaw bodyMax (bytesOf (bits.drop (o + 8))) := by
  simp only [frDecode, afterFlag_of_opensAt h]

theorem frDecodeRaw_of_no_flag {bytes : List Byte} (h : flagByte ∉ bytes) (bodyMax : Nat) :
    frDecodeRaw bodyMax bytes = .err .truncated := by
  simp only [frDecodeRaw, untilFlag_none h]

/-- The bytes behind the closing FLAG do not matter (R158). -/
theorem frDecodeRaw_append {raw : List Byte} (hraw : flagByte ∉ raw) (tail : List Byte) (bodyMax : Nat) :
    frDecodeRaw bodyMax (raw ++ flagByte :: tail) = frDecodeRaw bodyMax (raw ++ [flagByte]) := by
  simp only [frDecodeRaw, untilFlag_append hraw]

theorem frCheck_of_length {bodyMax : Nat} {body : List Byte} (h : bodyMax < body.length ∨ body.length < 4) :
    frCheck bodyMax body = .err .truncated := by
  rw [frCheck]
  split
  · rfl
  next hlong => exact if_pos (h.resolve_left hlong)

/-- A body within the bounds, split before its last four bytes (R161). -/
theorem frCheck_append {payload trailer : List Byte} {bodyMax : Nat} (htrailer : trailer.length = 4)
    (hfits : (payload ++ trailer).length ≤ bodyMax) :
    frCheck bodyMax (payload ++ trailer)
      = if trailer ≠ crc32le payload then .err .crcMismatch else .ok payload := by
  have hlen : (payload ++ trailer).length - 4 = payload.length := by
    rw [List.length_append, htrailer, Nat.add_sub_cancel]
  have hlong : ¬ (payload ++ trailer).length < 4 := by
    rw [List.length_append]
    omega
  rw [frCheck, if_neg hfits.not_gt, if_neg hlong, hlen, List.drop_left, List.take_left]

/-- Settles O19: in the order of the verdicts, by the lemma on each step of the decoder. -/
theorem verdictPrecedence : Obligations.VerdictPrecedence := by
  refine fun bits bodyMax => ⟨fun hnone => ?noOpening, fun o hopen => ?_⟩
  case noOpening => simp only [frDecode, afterFlag_of_not_opensAt hnone]
  rw [frDecode_of_opensAt hopen]
  refine ⟨fun hnone => frDecodeRaw_of_no_flag hnone bodyMax, fun raw tail hbytes hraw => ?_⟩
  have hclosed : frDecodeRaw bodyMax (bytesOf (bits.drop (o + 8))) = frDecodeRaw bodyMax (raw ++ [flagByte]) :=
    (congrArg (frDecodeRaw bodyMax) hbytes).trans (frDecodeRaw_append hraw tail bodyMax)
  rw [hclosed]
  refine ⟨fun herr => frDecodeRaw_of_err hraw herr bodyMax, fun body hbody => ?_⟩
  rw [frDecodeRaw_of_ok hraw hbody]
  refine ⟨frCheck_of_length, ?_⟩
  rintro payload trailer rfl htrailer hfits
  rw [frCheck_append htrailer hfits]
  exact ⟨fun hcrc => if_pos hcrc, fun hcrc => if_neg (not_not.mpr hcrc)⟩

/-! The round trip (R163). -/

/-- A frame among other bits, where none of those before it opens a FLAG, decodes by the checks on its own body. -/
theorem frDecode_frEncode_among (p : List Byte) {pre : List Bool}
    (hpre : ∀ j, j < pre.length → ¬ flagBits <+: (pre ++ bitsOf (frEncode p)).drop j) (post : List Bool)
    (bodyMax : Nat) :
    frDecode (pre ++ bitsOf (frEncode p) ++ post) bodyMax = frCheck bodyMax (p ++ crc32le p) := by
  have hbits : (pre ++ bitsOf (frEncode p)).drop pre.length = bitsOf (frEncode p) := List.drop_left
  have hopen : opensAt (pre ++ bitsOf (frEncode p)) pre.length :=
    ⟨by rw [hbits]; exact List.prefix_append flagBits _, hpre⟩
  have hrest : (pre ++ bitsOf (frEncode p) ++ post).drop (pre.length + 8)
      = bitsOf (frEscape (p ++ crc32le p) ++ [flagByte]) ++ post := by
    rw [← List.drop_drop, List.append_assoc, List.drop_left]
    rfl
  rw [frDecode_of_opensAt (hopen.append post), hrest, bytesOf_bitsOf_append, List.append_assoc, List.singleton_append,
    frDecodeRaw_append (flagByte_notMem_frEscape _), frDecodeRaw_of_ok (flagByte_notMem_frEscape _)
    (frUnescape_frEscape _)]

/-- Settles O18: the frame's own body is checked, and its length decides. -/
theorem frameRoundTrip : Obligations.FrameRoundTrip := by
  intro p pre post bodyMax hpre
  rw [frDecode_frEncode_among p hpre]
  refine ⟨frCheck_append_crc32le, fun hlong => frCheck_of_length (.inl ?_)⟩
  rwa [List.length_append, length_crc32le]

/-! Errors in one byte (R164): the CRC register keeps every difference. -/

theorem foldl_crcByte_injective {p : List Byte} {c d : Word} (h : p.foldl crcByte c = p.foldl crcByte d) : c = d := by
  induction p generalizing c d with
  | nil => exact h
  | cons b p ih => exact crcByte_injective_left (ih h)

theorem foldl_crcByte_set_ne {p : List Byte} {i : Nat} {b old : Byte} (hold : p[i]? = some old) (hb : b ≠ old)
    (c : Word) : (p.set i b).foldl crcByte c ≠ p.foldl crcByte c := by
  induction p generalizing i c with
  | nil => cases hold
  | cons a p ih =>
    cases i with
    | zero =>
      obtain rfl := Option.some.inj hold
      exact fun h => hb (crcByte_injective_right (foldl_crcByte_injective h))
    | succ i => exact ih hold (crcByte c a)

theorem crc32le_set_ne {p : List Byte} {i : Nat} {b old : Byte} (hold : p[i]? = some old) (hb : b ≠ old) :
    crc32le (p.set i b) ≠ crc32le p :=
  fun h => foldl_crcByte_set_ne hold hb _ ((BitVec.xor_left_inj _).mp (bytesLE_injective h))

theorem set_ne_of_getElem? {l : List Byte} {i : Nat} {b old : Byte} (hold : l[i]? = some old) (hb : b ≠ old) :
    l.set i b ≠ l := by
  intro h
  obtain ⟨hi, -⟩ := List.getElem?_eq_some_iff.mp hold
  have hset := List.getElem?_set_self (a := b) hi
  rw [h, hold] at hset
  exact hb (Option.some.inj hset).symm

/-- Where the byte stands in the payload the CRC changes; where it stands in the CRC the payload does not. -/
theorem frCheck_set_of_ne {p : List Byte} {i bodyMax : Nat} {b old : Byte} (hold : (p ++ crc32le p)[i]? = some old)
    (hb : b ≠ old) (hfits : p.length + 4 ≤ bodyMax) :
    frCheck bodyMax ((p ++ crc32le p).set i b) = .err .crcMismatch := by
  rcases Nat.lt_or_ge i p.length with hpayload | htrailer
  · rw [List.getElem?_append_left hpayload] at hold
    rw [List.set_append_left _ _ hpayload, frCheck_append (length_crc32le p) (by simpa using hfits),
      if_pos (crc32le_set_ne hold hb).symm]
  · rw [List.getElem?_append_right htrailer] at hold
    rw [List.set_append_right _ _ htrailer, frCheck_append (by simp) (by simpa using hfits),
      if_pos (set_ne_of_getElem? hold hb)]

/-- Settles O20: the raw bytes unescape to a body that the CRC check refuses. -/
theorem byteErrorIsDetected : Obligations.ByteErrorIsDetected := by
  intro p raw i bodyMax b old hold hb hfits hraw hbody
  calc frDecode (bitsOf (0x7E#8 :: (raw ++ [0x7E#8]))) bodyMax
      = frDecodeRaw bodyMax (raw ++ [flagByte]) := frDecode_bitsOf_flag _ _
    _ = frCheck bodyMax ((p ++ crc32le p).set i b) := frDecodeRaw_of_ok hraw hbody bodyMax
    _ = .err .crcMismatch := frCheck_set_of_ne hold hb hfits

/-- Settles O14: the CRC values by evaluation. The flipped bit makes a FLAG, so that what stands before it is the frame
of 61, with bits behind it. -/
theorem crcAndCorruptionExamples : Obligations.CrcAndCorruptionExamples := by
  have hflipped : bitsOf [0x7E, 0x61, 0x43, 0xBE, 0xB7, 0xE8, 0x7E, 0xB0, 0x9B, 0x98, 0x06, 0x7E]
      = [] ++ bitsOf (frEncode [0x61]) ++ bitsOf [0xB0, 0x9B, 0x98, 0x06, 0x7E] := by decide +kernel
  have hnone : ∀ j, j < ([] : List Bool).length → ¬ flagBits <+: ([] ++ bitsOf (frEncode [0x61])).drop j :=
    fun j hj => absurd hj j.not_lt_zero
  refine ⟨by decide +kernel, by decide +kernel, by decide +kernel, by decide +kernel, by decide +kernel,
    by decide +kernel, by decide +kernel, by decide +kernel, ?_⟩
  rw [hflipped]
  exact (frameRoundTrip [0x61] [] _ 37 hnone).1 (by decide)

/-! The decode attempt (43_arq_receiver.md R205). -/

/-- What `RX.CLOSE` records of the decode before the outcome: the count of ambiguous pulses and two flags. -/
theorem State.recordOvf_recordAmbig_eq (n : Nat) (o : Bool) (s : State) :
    (s.recordAmbig n).recordOvf o
      = { s with
          rxAmbig := BitVec.ofNat 16 (min n 0xFFFF)
          flags := s.flags ||| (if 0 < n then 0x80#8 else 0#8) ||| (if o then 0x20#8 else 0#8) } := by
  obtain ⟨_, hambig, rfl⟩ := s.recordAmbig_writes n
  obtain ⟨_, hovf, rfl⟩ := (s.recordAmbig n).recordOvf_writes o
  rw [hovf, hambig]

theorem exec_rxClose_of_idleExpired {s : State} (hst : s.rxState = .receiving) (hexp : s.idleExpired = true) :
    exec .rxClose s = .next s.quiet.doClose := by
  have hst' : s.quiet.rxState = .receiving := hst
  have hexp' : s.quiet.idleExpired = true := hexp
  simp only [exec, execRxClose, State.phaseClose, hst', hexp', if_true]

/-- The outcome of a frame with a header byte, its conditions read from the state (R114). -/
theorem State.doOutcome_header (s : State) (h : Byte) (m : List Byte) :
    s.doOutcome (.ok (h :: m))
      = if s.rxSession = true ∧ s.rxLastSeq = h.getLsbD 0 then s.doDup
        else if s.flags.getLsbD 2 = true then s.doBusy
        else s.doDeliver (h.getLsbD 0) m := by
  rw [State.doOutcome]
  exact if_congr (s.isDuplicate_iff (h.getLsbD 0)) rfl rfl

/-- Settles O46: the row is `doClose`, which records, takes the outcome and empties the window. -/
theorem rxCloseRow : Obligations.RxCloseRow := by
  intro s u r v hst hidle hr hv hu
  have hexp : s.idleExpired = true := (State.idleExpired_eq s).trans (decide_eq_true hidle)
  have hrecovered : s.quiet.recovered = r := hr.symm
  have hverdict : s.quiet.windowVerdict = v := by
    rw [hv, ← hrecovered]
    rfl
  have hrecorded : (s.quiet.recordAmbig r.namb).recordOvf r.ovf = u := by
    rw [State.recordOvf_recordAmbig_eq, hu]
    rfl
  have hrow : exec .rxClose s = .next { u.doOutcome v with rxTs := [], rxState := .idle } := by
    rw [exec_rxClose_of_idleExpired hst hexp, State.doClose, hrecovered, hverdict, hrecorded]
  refine ⟨hrow.trans ?_, fun h m hok => ?bound⟩
  case bound =>
    have hlen := frDecode_length (hv.symm.trans hok)
    rw [List.length_cons] at hlen
    omega
  rcases v with (_ | ⟨h, m⟩) | e
  case ok.cons =>
    -- what is recorded before the outcome bears on none of its conditions
    have hsession : u.rxSession = s.rxSession := by rw [hu]
    have hseq : u.rxLastSeq = s.rxLastSeq := by rw [hu]
    have hmsg : u.flags.getLsbD 2 = s.flags.getLsbD 2 := by
      obtain ⟨-, hflag⟩ := s.quiet.recordOvf_recordAmbig_spec r.namb r.ovf
      rwa [hrecorded] at hflag
    have houtcome := u.doOutcome_header h m
    rw [hsession, hseq, hmsg] at houtcome
    exact congrArg (fun t : State => Host.Outcome.next { t with rxTs := [], rxState := .idle }) houtcome
  all_goals rfl

end Sys2Proof.Machine
end

section
/-! PROOFS. The operations of the sender role performed alone (42_arq_sender.md): what `SEND`, `ACK.CAPTURE` and each row
of phase P4 write, in the state and the conditions that select it. -/

namespace Sys2Proof.Machine

/-! `SEND` (R181). -/

/-- Settles O33: each case of `State.doSend_cases` but one is excluded by the checks that pass or fail. -/
theorem sendCommand : Obligations.SendCommand := by
  intro s
  have hexec {t : State} (h : s.doSend = t) : exec .send s = .next (t.answer (.written true)) :=
    congrArg (fun t : State => Host.Outcome.next (t.answer (.written true))) h
  rw [← s.cfgOk_iff, Bool.not_eq_true, ← s.newFrame_eq]
  rcases s.doSend_cases with ⟨hbusy, e⟩ | ⟨hready, hcases⟩
  · refine ⟨fun _ => hexec e, fun hready => ?_⟩
    rcases hbusy with h | h <;> simp [h] at hready
  · refine ⟨fun hbusy => ?_, fun _ => ?_⟩
    · rcases hbusy with h | h <;> simp [h] at hready
    rcases hcases with ⟨hpeer, e⟩ | ⟨hpeer, hlong, e⟩ | ⟨hpeer, hlen, hcfg, e⟩ | ⟨hpeer, hlen, hcfg, e⟩
    · exact ⟨fun _ => hexec e, by simp [hpeer], by simp [hpeer], by simp [hpeer]⟩
    · exact ⟨by simp [hpeer], fun _ _ => hexec e, by simp [hlong], by simp [hlong]⟩
    · exact ⟨by simp [hpeer], by simp [hlen], fun _ _ _ => hexec e, by simp [hcfg]⟩
    · exact ⟨by simp [hpeer], by simp [hlen], by simp [hcfg], fun _ _ _ => hexec e⟩

/-! The rows performed alone (R182 to R190, log 4). -/

/-- A row that the dispatch selects has its effect. -/
theorem State.onTx_of_txOp {op : TxOp} {s : State} (h : s.txOp = op) (f : State → State) : s.onTx op f = f s := if_pos h

/-- A row that stores a sum of times has its effect where it is selected and the no-overflow premise holds. -/
theorem onTxTimed_of_txOp {op : TxOp} {s : State} (h : s.txOp = op) (htime : s.timeOk = true) (f : State → State) :
    onTxTimed op f s = .next (f s.quiet) := by
  rw [onTxTimed, htime, Bool.not_true, Bool.and_false, State.onTx_of_txOp (s.txOp_quiet.trans h)]
  rfl

/-- Settles O34, by the states of the sender. -/
theorem ackCapture : Obligations.AckCapture := by
  intro s
  have hexec : exec .ackCapture s = .next s.quiet.doAckCapture := rfl
  rw [hexec, State.doAckCapture, State.quiet_txState]
  split
  next hst => exact ⟨fun _ => rfl, fun h => absurd hst h⟩
  all_goals
    next hst => exact ⟨fun h => by simp [h] at hst, fun _ => rfl⟩

/-- Settles O35: where the dispatch selects one of these rows, phase P4 writes nothing; and the invariants bound `NOW`
by the slot waited for. -/
theorem txIdleRows : Obligations.TxIdleRows := by
  intro s
  refine ⟨fun hst => ⟨rfl, ?_⟩, fun hst => ⟨rfl, ?_⟩, fun hst hdue => ⟨rfl, ?_, fun hinv => ?_⟩,
    fun hst hack hlate => ⟨rfl, ?_⟩⟩
  · rw [State.phaseTx_eq, State.txOp_idle hst]
  · rw [State.phaseTx_eq, State.txOp_failed hst]
  · rw [Ne, ← s.due_iff, Bool.not_eq_true] at hdue
    rw [State.phaseTx_eq, State.txOp_waitSlot hst hdue]
  · exact Nat.lt_of_le_of_ne (hinv.schedule_ahead hst) hdue
  · rw [← Nat.not_le, ← s.timedOut_iff, Bool.not_eq_true] at hlate
    rw [State.phaseTx_eq, State.txOp_wait hst hack hlate]

/-- Settles O36: the dispatch selects `TX.EMIT` or `TX.EMITLAST` by the last bit of the vector, and both drive the bit
of the frame that the byte holds. -/
theorem txEmitRows : Obligations.TxEmitRows := by
  intro s b hst hdue hbyte
  have hbit : s.frameBit s.txIdx = b.getLsbD (7 - s.txIdx % 8) := by rw [State.frameBit, hbyte]
  rw [← s.due_iff] at hdue
  rw [Ne, ← s.lastBit_iff, ← hbit]
  refine ⟨fun hlast => ?_, fun hlast htime => ?_⟩
  · rw [Bool.not_eq_true] at hlast
    exact congrArg Host.Outcome.next (State.onTx_of_txOp (s := s.quiet) (State.txOp_emit hst hdue hlast) State.doEmit)
  · exact onTxTimed_of_txOp (State.txOp_emitLast hst hdue hlast) htime State.doEmitLast

/-- Settles O37: the dispatch selects each row by the acknowledgment, the deadline and the retry counter. -/
theorem txWaitingRows : Obligations.TxWaitingRows := by
  intro s hst
  rw [← s.timedOut_iff, ← Nat.not_le, ← s.exhausted_iff, Bool.not_eq_true]
  refine ⟨fun hack => ?_, fun hack hlate hmore htime => ?_, fun hack hlate hexh => ?_⟩
  · exact congrArg Host.Outcome.next (State.onTx_of_txOp (s := s.quiet) (State.txOp_acked hst hack) State.doAcked)
  · exact onTxTimed_of_txOp (State.txOp_retx hst hack hlate hmore) htime State.doRetx
  · exact congrArg Host.Outcome.next
      (State.onTx_of_txOp (s := s.quiet) (State.txOp_fail hst hack hlate hexh) State.doFail)

end Sys2Proof.Machine
end

section
/-! PROOFS. The schedule of a send that no acknowledgment ends (42_arq_sender.md R189, R191, R192). Attempt `r` begins
`r` whole attempts after the first one; each tick keeps the attempt going, begins the next one or, at the end of the last
one, fails. -/

namespace Sys2Proof.Machine

/-- The last tick of an attempt, counted from its first: the wait for the acknowledgment begins at the last bit's slot
and lasts for `T_ACK` (R191). -/
def State.waitEnd (s : State) : Nat := (8 * s.txFrame.length - 1) * s.cfgTslot.toNat + s.cfgTack.toNat

/-- The send in flight at `s`, as attempt `r` begins it anew: a retransmission starts in the tick after a wait ends
(R188). -/
def State.attempt (s : State) (r : Nat) : State := { s with now := s.now + r * (s.waitEnd + 1) }

theorem State.attempt_zero (s : State) : s.attempt 0 = s := by simp [State.attempt]

theorem State.attempt_succ_now (s : State) (r : Nat) : (s.attempt (r + 1)).now = (s.attempt r).now + s.waitEnd + 1 := by
  simp only [State.attempt, Nat.succ_mul, Nat.add_assoc]

/-- `t` agrees with `s` on what no tick writes of a send: the frame and the configuration. -/
structure sameFrameAndConfig (s t : State) : Prop where
  frame : t.txFrame = s.txFrame
  build : t.build = s.build
  config : t.cfgTslot = s.cfgTslot ∧ t.cfgTidle = s.cfgTidle ∧ t.cfgTack = s.cfgTack
  max_retry : t.cfgMaxRetry = s.cfgMaxRetry

theorem sameFrameAndConfig.refl (s : State) : sameFrameAndConfig s s := ⟨rfl, rfl, ⟨rfl, rfl, rfl⟩, rfl⟩

theorem sameFrameAndConfig.tick {s t u : State} {d a : Bool} (h : sameFrameAndConfig s t)
    (hu : exec (.tick d a) t = .next u) : sameFrameAndConfig s u := by
  rw [(execTick_next hu).2]
  constructor <;> simp [h.frame, h.build, h.config, h.max_retry]

theorem sameFrameAndConfig.timeOk {s t : State} {m n : Nat} (h : sameFrameAndConfig s t) (hnow : t.now = s.now + m)
    (hm : m ≤ n) (htime : s.timeOkFor n) : t.timeOk = true := by
  obtain ⟨hslot, hidle, hack⟩ := h.config
  rw [State.timeOkFor] at htime
  rw [State.timeOk_def, decide_eq_true_eq]
  simp only [State.tack, State.tidle, State.tslot] at htime ⊢
  rw [hnow, h.build, hslot, hidle, hack]
  omega

/-! One tick without an acknowledgment. -/

/-- What a transmission's tick writes of the sender beside the pulse and the next bit: where it ends the transmission it
sets the deadline (R183, R184, R190). -/
theorem State.phaseTx_sending {s : State} (hst : s.txState = .sending) (hack : s.ackSeen = false) :
    s.phaseTx.ackSeen = false ∧ s.phaseTx.txRetry = s.txRetry ∧ s.phaseTx.txSeq = s.txSeq ∧
    (s.phaseTx.txState = .waitingAck → s.phaseTx.txDeadline = s.now + s.cfgTack.toNat) := by
  cases hdue : s.due with
  | false =>
    rw [State.phaseTx_eq, State.txOp_waitSlot hst hdue]
    exact ⟨hack, rfl, rfl, fun h => by simp [hst] at h⟩
  | true =>
    cases hlast : s.lastBit with
    | false =>
      rw [State.phaseTx_eq, State.txOp_emit hst hdue hlast]
      exact ⟨hack, rfl, rfl, fun h => by simp [State.doEmit, hst] at h⟩
    | true =>
      rw [State.phaseTx_eq, State.txOp_emitLast hst hdue hlast]
      exact ⟨rfl, rfl, rfl, fun _ => rfl⟩

/-- `t` is `j` ticks into an attempt that began at `s`, and waits for the acknowledgment until the attempt's last
tick. -/
structure awaitingAck (s : State) (j : Nat) (t : State) : Prop where
  waiting : t.txState = .waitingAck
  now : t.now = s.now + j
  deadline : t.txDeadline = s.now + s.waitEnd

/-- `t` is `j` ticks into attempt `r` of the send that began at `s`, and has seen no acknowledgment. -/
structure unackedAt (s : State) (r j : Nat) (t : State) : Prop where
  same : sameFrameAndConfig s t
  no_ack : t.ackSeen = false
  retry : t.txRetry.toNat = r
  seq : t.txSeq = s.txSeq
  phase : (j ≤ (8 * s.txFrame.length - 1) * s.cfgTslot.toNat ∧ duringAttempt (s.attempt r) j t) ∨
    awaitingAck (s.attempt r) j t

theorem unackedAt.now {s t : State} {r j : Nat} (h : unackedAt s r j t) :
    t.now = s.now + (r * (s.waitEnd + 1) + j) := by
  rw [← Nat.add_assoc]
  rcases h.phase with ⟨-, h⟩ | h <;> exact h.now

theorem unackedAt.not_failed {s t : State} {r j : Nat} (h : unackedAt s r j t) : t.txState ≠ .failed := by
  rcases h.phase with ⟨-, h⟩ | h
  · rw [h.sending]; decide
  · rw [h.waiting]; decide

/-- A send begins with its first attempt (R181). -/
theorem unackedAt.init {s : State} (hT : 1 ≤ s.cfgTslot.toNat) (hst : s.txState = .sending) (hidx : s.txIdx = 0)
    (ht0 : s.txT0 = s.now) (hretry : s.txRetry = 0#9) (hack : s.ackSeen = false) : unackedAt s 0 0 s where
  same := .refl s
  no_ack := hack
  retry := by rw [hretry]; rfl
  seq := rfl
  phase := .inl ⟨Nat.zero_le _, by rw [State.attempt_zero]; exact .init hT hst hidx ht0⟩

/-- A tick of a transmission goes on with the attempt (R183, R184, R190). -/
theorem unackedAt.tick_sending {s t : State} {r j : Nat} (h : unackedAt s r j t) (hT : 1 ≤ s.cfgTslot.toNat)
    (hframe : 1 ≤ 8 * s.txFrame.length) (hj : j ≤ (8 * s.txFrame.length - 1) * s.cfgTslot.toNat)
    (ht : duringAttempt (s.attempt r) j t) (htime : t.timeOk = true) (d : Bool) :
    ∃ u, exec (.tick d false) t = .next u ∧ unackedAt s r (j + 1) u := by
  obtain ⟨u, hu, -, hnext, hend⟩ := ht.tick hT hframe hj htime d false
  have hsame := h.same.tick hu
  obtain ⟨hnow, -, hst, -, -, -, -, hretry, hseq, -, -, -, htack, -, -, -, hack⟩ := t.beforeTx_spec d false
  obtain ⟨hno, hretry', hseq', hdl⟩ := State.phaseTx_sending (hst.trans ht.sending)
    (hack.trans (by rw [h.no_ack, Bool.false_and, Bool.false_or]))
  obtain ⟨-, rfl⟩ := execTick_next hu
  refine ⟨_, hu, hsame, hno, ?_, hseq'.trans (hseq.trans h.seq), ?_⟩
  · exact (congrArg BitVec.toNat (hretry'.trans hretry)).trans h.retry
  · rcases Nat.lt_or_eq_of_le hj with hlt | heq
    · exact .inl ⟨hlt, hnext hlt⟩
    · refine .inr ⟨hend heq, congrArg (· + 1) ht.now, (hdl (hend heq)).trans ?_⟩
      rw [hnow, htack, ht.now, h.same.config.2.2, heq, Nat.add_assoc]
      rfl

/-- While an attempt waits, phase P4 of a tick sees the state before the tick, but for the receiver's part. -/
theorem unackedAt.beforeTx {s t : State} {r j : Nat} (h : unackedAt s r j t) (ht : awaitingAck (s.attempt r) j t)
    (d : Bool) : unackedAt s r j (t.beforeTx d false) ∧ awaitingAck (s.attempt r) j (t.beforeTx d false) := by
  obtain ⟨hnow, hbuild, hst, -, -, hframe, hdl, hretry, hseq, -, -, hslot, htack, hidle, hmax, -, hack⟩ :=
    t.beforeTx_spec d false
  obtain ⟨hslot', hidle', htack'⟩ := h.same.config
  have hwait : awaitingAck (s.attempt r) j (t.beforeTx d false) :=
    ⟨hst.trans ht.waiting, hnow.trans ht.now, hdl.trans ht.deadline⟩
  refine ⟨⟨⟨hframe.trans h.same.frame, hbuild.trans h.same.build,
    ⟨hslot.trans hslot', hidle.trans hidle', htack.trans htack'⟩, hmax.trans h.same.max_retry⟩, ?_,
    (congrArg BitVec.toNat hretry).trans h.retry, hseq.trans h.seq, .inr hwait⟩, hwait⟩
  rw [hack, h.no_ack, Bool.false_and, Bool.false_or]

theorem awaitingAck.timedOut_iff {s t : State} {j : Nat} (h : awaitingAck s j t) :
    t.timedOut = true ↔ s.waitEnd ≤ j := by
  rw [State.timedOut_iff, h.now, h.deadline]
  exact Nat.add_le_add_iff_left

theorem unackedAt.exhausted_iff {s t : State} {r j : Nat} (h : unackedAt s r j t) :
    t.exhausted = true ↔ s.cfgMaxRetry.toNat ≤ r := by
  rw [State.exhausted_iff, h.retry, h.same.max_retry]

/-- `TX_RETRY` counts one more than the attempts before without wrapping: it has a bit more than `CFG_MAXRETRY`
(10_state.md R48). -/
theorem unackedAt.retry_succ {s t : State} {r j : Nat} (h : unackedAt s r j t) (hr : r ≤ s.cfgMaxRetry.toNat) :
    (t.txRetry + 1).toNat = r + 1 := by
  have hmax := s.cfgMaxRetry.isLt
  have hretry := h.retry
  bv_omega

/-- A tick of the wait before the deadline goes on with the attempt (R187). -/
theorem unackedAt.tick_wait {s t : State} {r j : Nat} (h : unackedAt s r j t) (ht : awaitingAck (s.attempt r) j t)
    (hj : j < s.waitEnd) (htime : t.timeOk = true) (d : Bool) :
    ∃ u, exec (.tick d false) t = .next u ∧ unackedAt s r (j + 1) u := by
  obtain ⟨hb, hwait⟩ := h.beforeTx ht d
  have hearly : (t.beforeTx d false).timedOut = false := by
    rw [← Bool.not_eq_true, hwait.timedOut_iff]
    exact Nat.not_le.mpr hj
  have hphase : (t.beforeTx d false).phaseTx = t.beforeTx d false := by
    rw [State.phaseTx_eq, State.txOp_wait hwait.waiting hb.no_ack hearly]
  refine ⟨_, execTick_ok htime d false, ?_⟩
  rw [hphase]
  exact ⟨⟨hb.same.frame, hb.same.build, hb.same.config, hb.same.max_retry⟩, hb.no_ack, hb.retry, hb.seq,
    .inr ⟨hwait.waiting, congrArg (· + 1) ht.now, hwait.deadline⟩⟩

/-- The last tick of an attempt begins the next one where the retries are not exhausted (R188). -/
theorem unackedAt.tick_retx {s t : State} {r : Nat} (h : unackedAt s r s.waitEnd t)
    (ht : awaitingAck (s.attempt r) s.waitEnd t) (hT : 1 ≤ s.cfgTslot.toNat) (hr : r < s.cfgMaxRetry.toNat)
    (htime : t.timeOk = true) (d : Bool) :
    ∃ u, exec (.tick d false) t = .next u ∧ unackedAt s (r + 1) 0 u := by
  obtain ⟨hb, hwait⟩ := h.beforeTx ht d
  have hmore : (t.beforeTx d false).exhausted = false := by
    rw [← Bool.not_eq_true, hb.exhausted_iff]
    exact Nat.not_le.mpr hr
  have hphase : (t.beforeTx d false).phaseTx = (t.beforeTx d false).doRetx := by
    rw [State.phaseTx_eq, State.txOp_retx hwait.waiting hb.no_ack (hwait.timedOut_iff.mpr le_rfl) hmore]
  refine ⟨_, execTick_ok htime d false, ?_⟩
  rw [hphase, ht.now.trans hwait.now.symm]
  have hstart : (t.beforeTx d false).now + 1 = (s.attempt (r + 1)).now := by rw [hwait.now, State.attempt_succ_now]
  exact ⟨⟨hb.same.frame, hb.same.build, hb.same.config, hb.same.max_retry⟩, rfl, hb.retry_succ hr.le, hb.seq,
    .inl ⟨Nat.zero_le _, rfl, hstart, hstart, hb.same.frame, hb.same.build, hb.same.config,
      Nat.zero_le _, by rw [Nat.zero_add]; exact (Nat.zero_mul _).trans_lt hT⟩⟩

theorem State.hasFlag_doFail (s : State) : s.doFail.hasFlag .txFail = true := by simp [State.doFail, State.raise]

/-- The last tick of an attempt fails where the retries are exhausted (R189). -/
theorem unackedAt.tick_fail {s t : State} {r : Nat} (h : unackedAt s r s.waitEnd t)
    (ht : awaitingAck (s.attempt r) s.waitEnd t) (hr : r = s.cfgMaxRetry.toNat) (htime : t.timeOk = true) (d : Bool) :
    ∃ u, exec (.tick d false) t = .next u ∧ u.txState = .failed ∧ u.txResult = .maxRetriesExceeded ∧
      u.txRetry.toNat = s.cfgMaxRetry.toNat + 1 ∧ u.hasFlag .txFail = true ∧ u.txSeq = s.txSeq ∧
      u.txFrame = s.txFrame ∧ u.now = t.now + 1 := by
  obtain ⟨hb, hwait⟩ := h.beforeTx ht d
  have hphase : (t.beforeTx d false).phaseTx = (t.beforeTx d false).doFail := by
    rw [State.phaseTx_eq, State.txOp_fail hwait.waiting hb.no_ack (hwait.timedOut_iff.mpr le_rfl)
      (hb.exhausted_iff.mpr hr.ge)]
  refine ⟨_, execTick_ok htime d false, ?_⟩
  rw [hphase]
  exact ⟨rfl, rfl, hr ▸ hb.retry_succ hr.le, State.hasFlag_doFail _, hb.seq, hb.same.frame, rfl⟩

/-! The ticks of a send. -/

/-- A transmission is over before the wait is: `T_ACK` is at least 1. -/
theorem unackedAt.awaiting_waitEnd {s t : State} {r : Nat} (h : unackedAt s r s.waitEnd t)
    (hA : 1 ≤ s.cfgTack.toNat) : awaitingAck (s.attempt r) s.waitEnd t := by
  rcases h.phase with ⟨hj, -⟩ | hwait
  · rw [State.waitEnd] at hj
    omega
  · exact hwait

/-- Before its last tick an attempt goes on. -/
theorem unackedAt.tick {s t : State} {r j : Nat} (h : unackedAt s r j t) (hT : 1 ≤ s.cfgTslot.toNat)
    (hframe : 1 ≤ 8 * s.txFrame.length) (hj : j < s.waitEnd) (htime : t.timeOk = true) (d : Bool) :
    ∃ u, exec (.tick d false) t = .next u ∧ unackedAt s r (j + 1) u := by
  rcases h.phase with ⟨hj', ht⟩ | ht
  · exact h.tick_sending hT hframe hj' ht htime d
  · exact h.tick_wait ht hj htime d

/-- Until the last tick of the last attempt, the ticks complete and the send is in the attempt that their number gives
(R191). -/
theorem unackedAt.runTicks {s : State} (h : unackedAt s 0 0 s) (hcfg : s.cfgOk = true)
    (hframe : 1 ≤ 8 * s.txFrame.length) {n : Nat} (htime : s.timeOkFor n) (l : List (Bool × Bool))
    (hack : ∀ x ∈ l, x.2 = false) (hl : l.length < (s.cfgMaxRetry.toNat + 1) * (s.waitEnd + 1)) (hn : l.length ≤ n) :
    ∃ t r j, runTicks l s = some t ∧ unackedAt s r j t ∧ r ≤ s.cfgMaxRetry.toNat ∧ j ≤ s.waitEnd ∧
      r * (s.waitEnd + 1) + j = l.length := by
  obtain ⟨hT, -, hA⟩ := s.cfgOk_iff.mp hcfg
  induction l using List.reverseRecOn with
  | nil => exact ⟨s, 0, 0, rfl, h, Nat.zero_le _, Nat.zero_le _, by simp⟩
  | append_singleton l x ih =>
    obtain ⟨d, a⟩ := x
    obtain rfl : a = false := hack (d, a) (by simp)
    rw [List.length_append, List.length_singleton] at hl hn ⊢
    obtain ⟨t, r, j, hrun, ht, hr, hj, hcount⟩ := ih (fun x hx => hack x (by simp [hx])) (by omega) (by omega)
    have htime' := ht.same.timeOk ht.now (by omega) htime
    rcases Nat.lt_or_eq_of_le hj with hlt | rfl
    · obtain ⟨u, hu, hnext⟩ := ht.tick hT hframe hlt htime' d
      exact ⟨u, r, j + 1, runTicks_concat hrun hu, hnext, hr, hlt, by omega⟩
    · have hmore : r < s.cfgMaxRetry.toNat := by
        refine Nat.lt_of_le_of_ne hr ?_
        rintro rfl
        rw [Nat.succ_mul] at hl
        omega
      obtain ⟨u, hu, hnext⟩ := ht.tick_retx (ht.awaiting_waitEnd hA) hT hmore htime' d
      exact ⟨u, r + 1, 0, runTicks_concat hrun hu, hnext, hmore, Nat.zero_le _, by rw [Nat.succ_mul, ← hcount]; rfl⟩

/-- Settles O39, by induction over the ticks before the last (`unackedAt.runTicks`): the last one ends the wait of the
last attempt. -/
theorem scheduleToFailure : Obligations.ScheduleToFailure := by
  intro s l hinv hst hidx ht0 hretry hack htime
  have hcfg := (hinv.active_config (.inl hst)).1
  obtain ⟨hT, -, hA⟩ := s.cfgOk_iff.mp hcfg
  have hframe : 1 ≤ 8 * s.txFrame.length := le_trans (by decide) (hinv.frame_size (.inl hst)).1
  have hunseen : s.ackSeen = false := by
    rw [← Bool.not_eq_true]
    intro hseen
    simpa [hst] using hinv.ack_waiting hseen
  have hinit := unackedAt.init hT hst hidx ht0 hretry hunseen
  have htotal : (s.cfgMaxRetry.toNat + 1) * (s.waitEnd + 1)
      = (s.cfgMaxRetry.toNat + 1) * s.waitEnd + s.cfgMaxRetry.toNat + 1 := Nat.mul_succ _ _
  rw [← State.waitEnd]
  refine ⟨fun hl => ?_, fun hl => ?_⟩
  · obtain ⟨t, r, j, hrun, ht, -⟩ := hinit.runTicks hcfg hframe htime l hack (by omega) le_rfl
    exact ⟨t, hrun, ht.not_failed⟩
  · rw [← htotal] at hl
    obtain ⟨l, ⟨d, a⟩, rfl⟩ : ∃ l' x, l = l' ++ [x] :=
      ⟨l.dropLast, l.getLast (by rintro rfl; simp at hl), (List.dropLast_append_getLast _).symm⟩
    obtain rfl : a = false := hack (d, a) (by simp)
    rw [List.length_append, List.length_singleton] at hl htime ⊢
    obtain ⟨t, r, j, hrun, ht, hr, hj, hcount⟩ :=
      hinit.runTicks hcfg hframe htime l (fun x hx => hack x (by simp [hx])) (by omega) (Nat.le_succ _)
    obtain rfl : r = s.cfgMaxRetry.toNat := by
      refine Nat.le_antisymm hr (Nat.not_lt.mp fun hlt => ?_)
      have hle := Nat.mul_le_mul_right (s.waitEnd + 1) (Nat.succ_le_of_lt hlt)
      rw [Nat.succ_mul] at hle hl
      omega
    obtain rfl : j = s.waitEnd := by
      rw [Nat.succ_mul] at hl
      omega
    obtain ⟨u, hu, hfailed, hres, hcnt, hflag, hseq, hfr, hnow⟩ :=
      ht.tick_fail (ht.awaiting_waitEnd hA) rfl (ht.same.timeOk ht.now (by omega) htime) d
    refine ⟨u, runTicks_concat hrun hu, hfailed, hres, hcnt, hflag, hseq, hfr, ?_⟩
    rw [hnow, ht.now, hcount, Nat.add_assoc]

end Sys2Proof.Machine
end

section
/-! PROOFS. The operations of the receiver role performed alone (43_arq_receiver.md): what its two commands, each row of the
phases P1 and P3 and each outcome of a decode attempt write, in the state and the conditions that select it. -/

namespace Sys2Proof.Machine

/-! `RX_ENABLE` (R200): the peer is checked before the configuration. -/

theorem State.doRxEnable_of_no_peer {s : State} (hpeer : s.peerValid = false) :
    s.doRxEnable = s.raise (.cmdReject .noPeer) := if_pos (by rw [hpeer]; rfl)

theorem State.doRxEnable_of_bad_config {s : State} (hpeer : s.peerValid = true) (hcfg : s.cfgOk = false) :
    s.doRxEnable = s.raise (.cmdReject .badConfig) :=
  (if_neg (by simp [hpeer])).trans (if_pos (by rw [hcfg]; rfl))

theorem State.doRxEnable_of_cfgOk {s : State} (hpeer : s.peerValid = true) (hcfg : s.cfgOk = true) :
    s.doRxEnable = { s with rxEn := true } :=
  (if_neg (by simp [hpeer])).trans (if_neg (by simp [hcfg]))

/-- Settles O43: one equation of `State.doRxEnable` for each of its checks; `RX_DISABLE` checks nothing. -/
theorem rxEnableDisable : Obligations.RxEnableDisable := by
  intro s
  have hexec {t : State} (h : s.doRxEnable = t) : exec .rxEnable s = .next (t.answer (.written true)) :=
    congrArg (fun t : State => Host.Outcome.next (t.answer (.written true))) h
  rw [← s.cfgOk_iff, Bool.not_eq_true]
  exact ⟨fun hpeer => hexec (State.doRxEnable_of_no_peer hpeer),
    fun hpeer hcfg => hexec (State.doRxEnable_of_bad_config hpeer hcfg),
    fun hpeer hcfg => hexec (State.doRxEnable_of_cfgOk hpeer hcfg), rfl⟩

/-! The rows of phases P1 and P3 (R202 to R204, R212). -/

theorem State.phaseCapture_of_armed {s : State} (hst : s.rxState = .idle) (hen : s.rxEn = true) :
    s.phaseCapture true = s.doStart := by
  simp only [State.phaseCapture, hst, hen, if_true]

theorem State.phaseCapture_of_open {s : State} (hst : s.rxState = .receiving) : s.phaseCapture true = s.doCapture := by
  simp only [State.phaseCapture, hst, if_true]

/-- A stamp is appended where `RX_TS` has room for it (R203). -/
theorem State.doCapture_of_room {s : State} (hroom : s.rxTs.length < s.build.rxTsDepth) :
    s.doCapture = { s with rxTlast := s.now, rxTs := s.rxTs ++ [s.now] } := if_pos hroom

/-- A dropped stamp still restarts the idle count (R203). -/
theorem State.doCapture_of_full {s : State} (hfull : s.build.rxTsDepth ≤ s.rxTs.length) :
    s.doCapture = { s with rxTlast := s.now }.setFlag .rxOvf := if_neg (Nat.not_lt.mpr hfull)

/-- Settles O44: `RX.START` and `RX.CAPTURE` are phase P1 where the state selects them, and phase P3 writes nothing up to
the idle threshold. -/
theorem rxCaptureAndWaitRows : Obligations.RxCaptureAndWaitRows := by
  intro s
  have hcapture (hst : s.rxState = .receiving) : exec .rxCapture s = .next s.quiet.doCapture :=
    (exec_rxCapture_of_open hst).trans (congrArg Host.Outcome.next (State.phaseCapture_of_open (s := s.quiet) hst))
  refine ⟨fun _ _ => rfl, fun hst hen => ?start, fun hst hroom => ?room, fun hst hfull => ?full,
    fun hst hearly => ⟨fun i hi => ?wait, ?close⟩⟩
  case start =>
    exact (exec_rxStart_of_armed hst hen).trans
      (congrArg Host.Outcome.next (State.phaseCapture_of_armed (s := s.quiet) hst hen))
  case room =>
    exact (hcapture hst).trans (congrArg Host.Outcome.next (State.doCapture_of_room (s := s.quiet) hroom))
  case full =>
    exact (hcapture hst).trans (congrArg Host.Outcome.next (State.doCapture_of_full (s := s.quiet) hfull))
  case wait =>
    simp only [List.mem_cons, List.not_mem_nil, or_false] at hi
    rcases hi with rfl | rfl | rfl <;> rfl
  case close =>
    refine State.phaseClose_of_not_due fun hdue => ?_
    obtain ⟨-, hlate⟩ := hdue
    omega

/-! The outcomes of a decode attempt (R207 to R211). -/

/-- A frame is new where no session is open, or where its sequence bit is not the last one (R114). -/
theorem State.isDuplicate_eq_false_iff (q : Bool) (s : State) :
    s.isDuplicate q = false ↔ s.rxSession = false ∨ s.rxLastSeq ≠ q := by
  rw [← Bool.not_eq_true, State.isDuplicate_iff, not_and_or, Bool.not_eq_true]

/-- Settles O45: each row is its outcome where the state selects it, and a delivery is read back by
`State.doDeliver_read`. -/
theorem rxOutcomeRows : Obligations.RxOutcomeRows := by
  intro s hmem
  refine ⟨fun e => ?dropErr, rfl, fun q hsession hseq => ?dup, fun q hnew hpending => ?busy,
    fun q m hnew hclear hm => ?deliver⟩
  case dropErr => cases e <;> rfl
  case dup => exact exec_rxDup_of_duplicate ((s.isDuplicate_iff q).mpr ⟨hsession, hseq⟩)
  case busy => exact exec_rxBusy_of_pending ((s.isDuplicate_eq_false_iff q).mpr hnew) hpending
  case deliver =>
    exact ⟨(s.quiet.doDeliver q m).mem,
      exec_rxDeliver_of_new ((s.isDuplicate_eq_false_iff q).mpr hnew) hclear hm,
      State.doDeliver_read (s := s.quiet) hmem q m⟩

end Sys2Proof.Machine
end

section
/-! PROOFS. The host interface (44_host_interface.md): what an access to each register and buffer byte returns and
writes (R231 to R239), the two resets (R242, R243), and that nothing but these and the rejections changes `ERR_CODE` or
raises `CMD_ERR` (R240, 60_exceptions.md R264). -/

namespace Sys2Proof.Machine

/-! The registers by offset (10_state.md R26). -/

/-- Each register is found at its own offset. -/
theorem Reg.at?_offset (r : Reg) : Reg.at? r.offset = some r := by cases r <;> rfl

theorem Reg.at?_eq_none {off : Nat} (h : ∀ r : Reg, r.offset ≠ off) : Reg.at? off = none :=
  List.find?_eq_none.mpr fun r _ hr => h r (beq_iff_eq.mp hr)

/-! `REG.RD` (R231). -/

/-- Of the reads only that of `NOW_LO` writes, and nothing but the shadow. -/
theorem State.regReadEffect_eq (r : Reg) (s : State) :
    s.regReadEffect r = { s with nowHiShadow := if r = .nowLo then s.nowHi else s.nowHiShadow } := by
  cases r <;> rfl

theorem exec_regRd_offset (r : Reg) (s : State) :
    exec (.regRd r.offset) s = .next ((s.regReadEffect r).answer (.read (s.regValue r) true)) := by
  rw [exec, execRegRd, State.readReg, r.at?_offset]

theorem exec_regRd_unlisted {off : Nat} (h : ∀ r : Reg, r.offset ≠ off) (s : State) :
    exec (.regRd off) s = .next s.busErrorRead := by
  rw [exec, execRegRd, State.readReg, Reg.at?_eq_none h]

/-- Settles O22: a read at a register's offset answers `State.regValue` after `State.regReadEffect`. -/
theorem registerReads : Obligations.RegisterReads := by
  refine fun s => ⟨fun r => ?_, fun off h => exec_regRd_unlisted h s⟩
  rw [exec_regRd_offset, State.regReadEffect_eq]
  cases r <;> rfl

/-! `REG.WR` (R232). -/

/-- A write where no register can be written is a bus error. -/
theorem exec_regWr_of_not_writable {off : Nat} (h : ∀ r, Reg.at? off = some r → r.readOnly = true) (v : Word)
    (s : State) : exec (.regWr off v) s = .next s.busErrorWrite := by
  rw [exec, execRegWr, State.writeReg]
  split
  next r hr => rw [if_pos (h r hr)]
  next => rfl

/-- A write to `CMD` performs the command of the value's row (30_encoding.md R108, R109). -/
theorem exec_regWr_cmd (v : Word) (s : State) :
    exec (.regWr 0x00 v) s = exec (decode (.cmd v)) s := by
  have hrow : commandOf (decode (.cmd v)) = some v := by
    rcases cmd_cases v with rfl | rfl | rfl | rfl | rfl | h
    case inr.inr.inr.inr.inr => rw [decode_cmd_reserved h, commandOf]
    all_goals rfl
  exact (exec_of_commandOf rfl s).trans (exec_of_commandOf hrow s).symm

/-- Settles O25: `CMD` goes by the decoder of commands, a register with a row of its own by that row's definition, and
every other offset has no writable register. -/
theorem registerWrites : Obligations.RegisterWrites := by
  intro v s
  refine ⟨?cmd, rfl, rfl, rfl, rfl, rfl, rfl, rfl, rfl, rfl, rfl, fun off hoff =>
    exec_regWr_of_not_writable (fun r hr => ?readOnly) v s⟩
  case cmd =>
    rw [exec_regWr_cmd, decode, decodeCmd]
    simp only [apply_ite (exec · s)]
  case readOnly =>
    have hoffset : r.offset = off := Reg.offset_of_at? hr
    rcases hoff with hlisted | hnone
    · exact r.readOnly_iff.mpr (hoffset ▸ hlisted)
    · exact absurd hoffset (hnone r)

/-! `FLAGS`, `IRQ_EN` and `TX_LEN` (R236, R237). -/

theorem getLsbD_truncate_byte (v : Word) {i : Nat} (hi : i < 8) : (v.truncate 8).getLsbD i = v.getLsbD i := by
  simp [hi]

/-- Writing 1 clears, writing 0 keeps (10_state.md R24). -/
theorem State.getLsbD_clearFlags (s : State) (m : BitVec 8) {i : Nat} (hi : i < 8) :
    (s.clearFlags m).flags.getLsbD i = (s.flags.getLsbD i && !m.getLsbD i) := by
  simp [hi]

/-- Settles O26: the row of `FLAGS` is `State.clearFlags` of the low byte, and that of `IRQ_EN` stores the low byte. -/
theorem flagsIrqEnTxLenWrites : Obligations.FlagsIrqEnTxLenWrites := by
  refine fun v s => ⟨⟨(s.clearFlags (v.truncate 8)).flags, rfl, fun i hi => ?_⟩,
    ⟨v.truncate 8, rfl, fun i hi => getLsbD_truncate_byte v hi⟩, rfl⟩
  rw [s.getLsbD_clearFlags _ hi, getLsbD_truncate_byte v hi]

/-! The locked registers (R238, R239). -/

theorem State.writeLocked_of_quiescent {s : State} (hq : s.quiescent = true) (f : State → State) :
    s.writeLocked f = f s := if_pos hq

theorem State.writeLocked_of_active {s : State} (hq : s.quiescent = false) (f : State → State) :
    s.writeLocked f = s.raise (.cmdReject .locked) := if_neg (by simp [hq])

/-- Settles O27: each of the seven rows is `State.writeLocked` of its own store. -/
theorem lockedWrites : Obligations.LockedWrites := by
  intro v s
  have hrow (f : State → State) {t : State} (h : s.writeLocked f = t) :
      (.next ((s.writeLocked f).answer (.written true)) : Host.Outcome State Fault Refusal)
        = .next (t.answer (.written true)) := by rw [h]
  rw [← s.quiescent_iff, Bool.not_eq_true]
  refine ⟨fun hq => ?stored, fun hactive i hi => ?rejected⟩
  case stored =>
    have hstore (f : State → State) := hrow f (State.writeLocked_of_quiescent hq f)
    exact ⟨hstore _, hstore _, hstore _, hstore _, hstore _, hstore _, hstore _⟩
  case rejected =>
    have hreject (f : State → State) := hrow f (State.writeLocked_of_active hactive f)
    simp only [List.mem_cons, List.not_mem_nil, or_false] at hi
    rcases hi with rfl | rfl | rfl | rfl | rfl | rfl | rfl
    all_goals exact hreject _

/-! The buffers (R233, R234). -/

theorem exec_bufRd_inside {a : Nat} {s : State} (h : a < s.build.maxPayload) (sp : BufSpace) :
    exec (.bufRd sp a) s = .next (s.answer (.read ((s.mem.read (bufAddr sp a)).zeroExtend 32) true)) :=
  congrArg Host.Outcome.next (if_neg (Nat.not_le.mpr h))

theorem exec_bufRd_outside {a : Nat} {s : State} (h : s.build.maxPayload ≤ a) (sp : BufSpace) :
    exec (.bufRd sp a) s = .next s.busErrorRead := congrArg Host.Outcome.next (if_pos h)

theorem exec_bufWr_inside {a : Nat} {s : State} (h : a < s.build.maxPayload) (b : Byte) :
    exec (.bufWr a b) s
      = .next (State.answer (.written true) { s with mem := s.mem.write (txbufAddr a) b }) :=
  congrArg Host.Outcome.next (if_neg (Nat.not_le.mpr h))

theorem exec_bufWr_outside {a : Nat} {s : State} (h : s.build.maxPayload ≤ a) (b : Byte) :
    exec (.bufWr a b) s = .next s.busErrorWrite := congrArg Host.Outcome.next (if_pos h)

/-- Settles O29: by the bound on the address; what the memory reads after the write is the law of a canonical memory. -/
theorem bufferAccess : Obligations.BufferAccess := by
  intro s a b hmem
  exact ⟨fun hin => ⟨exec_bufRd_inside hin .txbuf, exec_bufRd_inside hin .rxbuf, _, exec_bufWr_inside hin b,
      Memory.read_write_same hmem, fun _ hx => Memory.read_write_other hx⟩,
    fun hout => ⟨exec_bufRd_outside hout, exec_bufWr_outside hout b⟩, fun acc => exec_busError acc s⟩

/-! The resets (R242, R243). -/

/-- With no event enabled the interrupt line is 0 (60_exceptions.md R268). -/
theorem State.irq_of_irqEn_eq_zero {s : State} (h : s.irqEn = 0#8) : s.irq = false := by
  simp [State.irq, h]

/-- Settles O31: the reset values are those of `State.doSoftReset` and `State.resetOf`; no byte of the memory is listed
after `RESET`, and no event is enabled. -/
theorem resetOperations : Obligations.ResetOperations := fun s =>
  ⟨rfl, s.doReset, rfl, rfl, fun _ => rfl, State.irq_of_irqEn_eq_zero rfl⟩

/-! `ERR_CODE` and `CMD_ERR` (R240, 60_exceptions.md R264, R271). -/

/-- Between the two states no rejection shows: `ERR_CODE` is as before, and `CMD_ERR` pending only where it was. -/
structure noNewError (s t : State) : Prop where
  code : t.errCode = s.errCode
  flag : t.hasFlag .cmdErr = true → s.hasFlag .cmdErr = true

theorem noNewError.answer {s t : State} (h : noNewError s t) (r : Response) : noNewError s (t.answer r) :=
  ⟨h.code, h.flag⟩

/-- Flags were set, and `CMD_ERR` is not among them. -/
theorem noNewError.of_set {s t : State} {k : BitVec 8} (hk : k.getLsbD Flag.cmdErr.bit = true)
    (hcode : t.errCode = s.errCode) (hflags : ∃ m, t.flags = s.flags ||| m ∧ m &&& k = 0#8) : noNewError s t := by
  obtain ⟨m, e, hm⟩ := hflags
  exact ⟨hcode, fun hset => State.hasFlag_of_mask_disjoint e hm hk ▸ hset⟩

/-- Flags were cleared. -/
theorem noNewError.of_clear {s t : State} {m : BitVec 8} (hcode : t.errCode = s.errCode)
    (hflags : t.flags = s.flags &&& ~~~m) : noNewError s t := by
  refine ⟨hcode, fun hset => ?_⟩
  rw [State.hasFlag_clearMask hflags] at hset
  exact (Bool.and_eq_true_iff.mp hset).1

/-- `SEND` is rejected or raises no error (42_arq_sender.md R181). -/
theorem State.doSend_errors (s : State) :
    (∃ c, c ≠ .none ∧ s.doSend = s.raise (.cmdReject c)) ∨ noNewError s s.doSend := by
  rcases s.doSend_cases with ⟨-, e⟩ | ⟨-, ⟨-, e⟩ | ⟨-, -, e⟩ | ⟨-, -, -, e⟩ | ⟨-, -, -, e⟩⟩
  case inr.inr.inr.inr => exact .inr (e ▸ .of_clear rfl rfl)
  all_goals exact .inl ⟨_, by decide, e⟩

/-- A command is `SOFT_RESET`, or rejected, or raises no error. -/
theorem State.doCommand_errors (v : Word) (s : State) :
    (v = 4 ∧ (s.doCommand v).errCode = .none) ∨ (∃ c, c ≠ .none ∧ s.doCommand v = s.raise (.cmdReject c)) ∨
    noNewError s (s.doCommand v) := by
  rcases s.doCommand_cases v with ⟨-, e⟩ | ⟨-, e⟩ | ⟨-, e⟩ | ⟨-, e⟩ | ⟨hv, e⟩ | hreject
  case inr.inl => exact .inr (e ▸ s.doSend_errors)
  case inr.inr.inr.inr.inl => exact .inl ⟨hv, e ▸ rfl⟩
  case inr.inr.inr.inr.inr => exact .inr (.inl hreject)
  all_goals exact .inr (.inr (by rw [e]; exact ⟨rfl, id⟩))

/-- A write to a register other than `CMD` is rejected or raises no error. -/
theorem State.regWrite_errors {i : Instr} {r : Reg} {v : Word} (h : regWriteOf i = some (r, v)) (s : State) :
    s.regWrite r v = s.raise (.cmdReject .locked) ∨ noNewError s (s.regWrite r v) := by
  rcases State.regWrite_cases h s with ⟨_, _, _, _, _, _, _, _, _, _, e⟩ | ⟨-, e⟩ | e
  · exact .inr (e ▸ ⟨rfl, id⟩)
  · exact .inr (e ▸ .of_clear rfl rfl)
  · exact .inl e

/-- A rejection that answers `ok = 1` is the state of R240. -/
theorem State.answer_raise_cmdReject (c : ErrCode) (s : State) :
    (s.raise (.cmdReject c)).answer (.written true) = s.afterReject c := rfl

/-- What an operation does to `ERR_CODE` and `CMD_ERR`: it is a reset, it is a rejection, or it raises no error. -/
theorem exec_errors {i : Instr} {s t : State} (h : exec i s = .next t) :
    ((i = .reset ∨ commandOf i = some 4) ∧ t.errCode = .none) ∨
    (∃ code : ErrCode, code ≠ .none ∧ t = s.afterReject code) ∨ noNewError s t := by
  cases NextBy.of_exec h
  case reset hi => exact .inl ⟨.inl hi, rfl⟩
  case command v hv =>
    rcases s.doCommand_errors v with ⟨rfl, hnone⟩ | ⟨c, hc, e⟩ | hsame
    · exact .inl ⟨.inr hv, hnone⟩
    · exact .inr (.inl ⟨c, hc, by rw [e, State.answer_raise_cmdReject]⟩)
    · exact .inr (.inr (hsame.answer _))
  case regWrite r v hr hc =>
    rcases State.regWrite_errors hr s with e | hsame
    · exact .inr (.inl ⟨.locked, by decide, by rw [e, State.answer_raise_cmdReject]⟩)
    · exact .inr (.inr (hsame.answer _))
  case tick d a hi => exact .inr (.inr (.of_set (by decide) (s.tickPhases_errCode d a) (s.tickPhases_flags d a)))
  case phaseCapture hi =>
    exact .inr (.inr (.of_set (by decide) (State.phaseCapture_errCode _ _) (s.quiet.phaseCapture_flags true)))
  case phaseClose hi => exact .inr (.inr (.of_set (by decide) (State.phaseClose_errCode _) s.quiet.phaseClose_flags))
  case phaseTx hi => exact .inr (.inr (.of_set (by decide) (State.phaseTx_errCode _) s.quiet.phaseTx_flags))
  case outcome v hv hdup hbusy =>
    exact .inr (.inr (.of_set (by decide) (State.doOutcome_errCode _ _) (s.quiet.doOutcome_flags v)))
  case phaseAck =>
    exact .inr (.inr ⟨State.phaseAck_errCode _ _, by rw [State.hasFlag, State.phaseAck_flags]; exact id⟩)
  all_goals exact .inr (.inr ⟨rfl, id⟩)

/-- Settles O59: `exec_errors`, of whose cases the last is excluded by what is seen. -/
theorem rejectionsArePrecise : Obligations.RejectionsArePrecise := by
  intro i s t h hseen
  rcases exec_errors h with hreset | hreject | hsame
  · exact .inl hreset
  · exact .inr hreject
  · rcases hseen with hcode | ⟨hclear, hset⟩
    · exact absurd hsame.code hcode
    · exact absurd (hsame.flag hset) (by simp [hclear])

end Sys2Proof.Machine
end

section
/-! PROOFS. The exceptions (60_exceptions.md): when the interrupt line is 1, and which of two events of one tick is taken.
A tick with an acknowledgment or a pulse never finds the timeout that the event beats: phase P2 comes before P4, and
phase P1 before P3 (20_memory.md R80). -/

namespace Sys2Proof.Machine

/-! The interrupt line (R268). -/

theorem State.irq_iff (s : State) :
    s.irq = true ↔ ∃ i < 8, s.flags.getLsbD i = true ∧ s.irqEn.getLsbD i = true := by
  have hbits : s.flags &&& s.irqEn = 0#8 ↔ ∀ i < 8, ¬(s.flags.getLsbD i = true ∧ s.irqEn.getLsbD i = true) := by
    simp [BitVec.eq_of_getLsbD_eq_iff]
  rw [State.irq, bne_iff_ne, Ne, hbits]
  push Not
  rfl

/-- Settles O32: the AND of two bytes is not 0 where they share a bit, and after `RESET` no event is enabled. -/
theorem interruptLevel : Obligations.InterruptLevel :=
  ⟨State.irq_iff, fun _ => ⟨rfl, State.irq_of_irqEn_eq_zero rfl⟩⟩

/-! The sender's events of one tick (R270). -/

/-- Phase P4 of a tick takes the acknowledgment that phase P2 captured, whatever the deadline (42_arq_sender.md R186). -/
theorem State.tickPhases_acked {s : State} (hst : s.txState = .waitingAck) (d : Bool) :
    s.tickPhases d true = (s.beforeTx d true).doAcked := by
  have hwait : (s.beforeTx d true).txState = .waitingAck := by simpa [State.beforeTx] using hst
  have hseen : (s.beforeTx d true).ackSeen = true := by simp [State.beforeTx_ackSeen, hst]
  rw [State.tickPhases_eq, State.phaseTx_eq, State.txOp_acked hwait hseen]

/-- A tick at the last bit's slot ends the transmission, whatever the strobes (42_arq_sender.md R184). -/
theorem State.tickPhases_emitLast {s : State} (hst : s.txState = .sending) (hdue : s.due = true)
    (hlast : s.lastBit = true) (d a : Bool) : s.tickPhases d a = (s.beforeTx d a).doEmitLast := by
  rw [State.tickPhases_eq, State.phaseTx_eq, State.txOp_beforeTx hst, State.txOp_emitLast hst hdue hlast]

theorem State.hasFlag_doAcked (s : State) : s.doAcked.hasFlag .txDone = true := by simp [State.doAcked]

/-! The receiver's events of one tick (R270). -/

/-- A pulse in an open window becomes its last instant, also where the stamp is dropped (43_arq_receiver.md R203). -/
theorem State.doCapture_window (s : State) : s.doCapture.rxState = s.rxState ∧ s.doCapture.rxTlast = s.now := by
  rcases Nat.lt_or_ge s.rxTs.length s.build.rxTsDepth with hroom | hfull
  · rw [State.doCapture_of_room hroom]
    exact ⟨rfl, rfl⟩
  · rw [State.doCapture_of_full hfull]
    exact ⟨rfl, rfl⟩

/-- In a tick with a pulse phase P3 makes no decode attempt: the receiver's window is what phase P1 left, and the results
and the strobe are those of the start of the tick. -/
theorem State.tickPhases_pulse_window (s : State) (a : Bool) :
    (s.tickPhases true a).rxState = (s.quiet.phaseCapture true).rxState ∧
    (s.tickPhases true a).rxTlast = (s.quiet.phaseCapture true).rxTlast ∧
    (s.tickPhases true a).rxTs = (s.quiet.phaseCapture true).rxTs ∧
    (s.tickPhases true a).ackOut = false ∧ (s.tickPhases true a).rxResult = s.rxResult ∧
    (s.tickPhases true a).rxAmbig = s.rxAmbig := by
  have hclose : s.beforeTx true a = (s.quiet.phaseCapture true).phaseAck a :=
    State.phaseClose_of_not_due (by simpa using s.quiet.phaseCapture_pulse_not_due)
  rw [State.tickPhases_eq, hclose]
  simp

/-- With a window open, a tick with a pulse keeps it open, whatever the silence before it (43_arq_receiver.md R203). -/
theorem State.tickPhases_pulse_of_open {s : State} (hst : s.rxState = .receiving) (a : Bool) :
    (s.tickPhases true a).rxState = .receiving ∧ (s.tickPhases true a).rxTlast = s.now := by
  obtain ⟨hrx, hlast, -⟩ := s.tickPhases_pulse_window a
  obtain ⟨hkept, hnow⟩ := s.quiet.doCapture_window
  rw [hrx, hlast, State.phaseCapture_of_open (s := s.quiet) hst]
  exact ⟨hkept.trans hst, hnow⟩

/-- With no window open, a tick with a pulse opens one where the receiver is armed (43_arq_receiver.md R202). -/
theorem State.tickPhases_pulse_of_armed {s : State} (hst : s.rxState = .idle) (hen : s.rxEn = true) (a : Bool) :
    (s.tickPhases true a).rxState = .receiving ∧ (s.tickPhases true a).rxTs = [s.now] := by
  obtain ⟨hrx, -, hts, -⟩ := s.tickPhases_pulse_window a
  rw [hrx, hts, State.phaseCapture_of_armed (s := s.quiet) hst hen]
  exact ⟨rfl, rfl⟩

/-- A tick that closes the window had no pulse. -/
theorem no_pulse_of_window_closed {s t : State} {d a : Bool} (hst : s.rxState = .receiving)
    (h : exec (.tick d a) s = .next t) (hclosed : t.rxState = .idle) : d = false := by
  rw [(execTick_next h).2] at hclosed
  rw [← Bool.not_eq_true]
  rintro rfl
  cases hclosed.symm.trans (State.tickPhases_pulse_of_open hst a).1

/-- Settles O49: what each phase finds in a tick with the event, and so which operation it performs. -/
theorem simultaneousEvents : Obligations.SimultaneousEvents := by
  intro s d a htime
  refine ⟨fun hst => ⟨_, execTick_ok htime d true, ?acked⟩, fun hst => ⟨_, execTick_ok htime true a, ?pulse⟩,
    fun hst hdue hlast => ⟨_, execTick_ok htime d true, ?emitLast⟩, fun t hst ht hclosed =>
      ⟨no_pulse_of_window_closed hst ht hclosed, fun hen htime' => ⟨_, execTick_ok htime' true a,
        State.tickPhases_pulse_of_armed hclosed hen a⟩⟩⟩
  case acked =>
    obtain ⟨-, -, -, -, -, -, -, hretry, hseq, -⟩ := s.beforeTx_spec d true
    rw [← State.tickPhases_eq, State.tickPhases_acked hst]
    exact ⟨rfl, rfl, congrArg Bool.not hseq, State.hasFlag_doAcked _, hretry⟩
  case pulse =>
    obtain ⟨hopen, hlast⟩ := State.tickPhases_pulse_of_open hst a
    obtain ⟨-, -, -, hack, hresult, hambig⟩ := s.tickPhases_pulse_window a
    exact ⟨hopen, hlast, hack, hresult, hambig⟩
  case emitLast =>
    rw [← State.tickPhases_eq, State.tickPhases_emitLast hst (s.due_iff.mpr hdue) (s.lastBit_iff.mpr hlast)]
    exact ⟨rfl, rfl⟩

end Sys2Proof.Machine
end

section
/-! PROOFS. The no-overflow premise (70_reset_and_hazards.md R304): it is all that can stop a step. Only a tick and the
two sender rows that store a sum of times ask for it; taking the next operation of the script leaves it as it is. -/

namespace Sys2Proof.Machine

/-- The no-overflow premise (R304), in the sizes of the configuration registers. -/
theorem State.timeOk_iff (s : State) :
    s.timeOk = true ↔ s.now + s.cfgTack.toNat + s.cfgTidle.toNat + s.build.frameMaxBits * s.cfgTslot.toNat + 2
      < 2 ^ s.build.tsW :=
  decide_eq_true_iff

@[simp] theorem State.timeOk_fetch (s : State) : s.fetch.2.timeOk = s.timeOk := by
  cases hs : s.script with
  | nil => rw [State.fetch_of_nil hs]
  | cons r rest => rw [State.fetch_of_cons hs]; rfl

/-- Outside the premise a tick is refused. -/
theorem execTick_refused {s : State} (h : s.timeOk = false) (d a : Bool) :
    execTick d a s = .refused .timeOverflow := by
  simp [execTick, h]

/-- Inside the premise a row that stores a sum of times completes, selected or not. -/
theorem onTxTimed_of_timeOk {s : State} (h : s.timeOk = true) (op : TxOp) (f : State → State) :
    onTxTimed op f s = .next (s.quiet.onTx op f) := by
  simp [onTxTimed, h]

/-- Every operation completes inside the premise, and outside it every operation that stores no sum of times. -/
theorem exec_completes {i : Instr} {s : State}
    (h : s.timeOk = true ∨ (i ≠ .txEmitLast ∧ i ≠ .txRetx ∧ ∀ d a, i ≠ .tick d a)) : ∃ t, exec i s = .next t := by
  cases i
  case tick d a =>
    have htime : s.timeOk = true := h.resolve_right fun ⟨_, _, htick⟩ => htick d a rfl
    exact ⟨_, execTick_ok htime d a⟩
  case txEmitLast =>
    have htime : s.timeOk = true := h.resolve_right fun ⟨hlast, _, _⟩ => hlast rfl
    exact ⟨_, onTxTimed_of_timeOk htime .emitLast State.doEmitLast⟩
  case txRetx =>
    have htime : s.timeOk = true := h.resolve_right fun ⟨_, hretx, _⟩ => hretx rfl
    exact ⟨_, onTxTimed_of_timeOk htime .retx State.doRetx⟩
  all_goals exact ⟨_, rfl⟩

/-- Settles O51, by the operations; a step is `exec` of the fetched operation under the same premise. -/
theorem onlyTheTimePremiseStops : Obligations.OnlyTheTimePremiseStops := fun _ s =>
  ⟨s.timeOk_iff, exec_completes, execTick_refused, fun htime => exec_completes (.inl (s.timeOk_fetch.trans htime))⟩

end Sys2Proof.Machine
end
